-- ==== Sys2Proof/Word.lean ====
section
/-! DEFINITION. The word types of the L480 (spec 01 R4, 14 R309) and lane-indexed data (02 R17). -/

namespace Sys2Proof

/-- An 8-bit byte, the smallest addressable unit (01 R4). -/
abbrev Byte := BitVec 8

/-- A 32-bit register value (04 R81, R87). -/
abbrev Word := BitVec 32

/-- A 64-bit value, held in an even register pair or in memory (04 R80). -/
abbrev DWord := BitVec 64

/-- One value per lane of a group; a group has 32 lanes (02 R17). -/
abbrev Lanes (α : Type) := Vector α 32

/-- A set of lanes: bit l is lane l (04 R88, R92). -/
abbrev Mask := BitVec 32

/-- The same value in every lane. -/
def Lanes.fill {α : Type} (x : α) : Lanes α := Vector.replicate 32 x

/-- The lane data whose lane l holds `f l`. -/
def Lanes.ofFn {α : Type} (f : Fin 32 → α) : Lanes α := Vector.ofFn f

@[simp] theorem Lanes.getElem_ofFn {α : Type} (f : Fin 32 → α) (l : Fin 32) :
    (Lanes.ofFn f)[l] = f l := by
  simp [Lanes.ofFn]

@[simp] theorem Lanes.getElem_fill {α : Type} (x : α) (l : Fin 32) :
    (Lanes.fill x)[l] = x := by
  simp [Lanes.fill]

end Sys2Proof
end

