-- ==== Sys2Proof/Syntax.lean ====
section
/-! DEFINITION. The abstract syntax: one constructor per row of the opcode table (spec 14 R321, R322; 95_what_each_step_holds).
The first 196 kinds with bit fields are instructions; the others are steps of the device itself, whose arguments
are what the outside world or the asynchronous agent supplies. Field names are those of the table, except that the stall
count is `st`, an immediate `im`, and the scope of ATOMU and CASU `sc`. -/

namespace Sys2Proof



/-- The instructions and the device steps of the L480. -/
inductive Instr where
  /-- IADD (R400). Adds lane integers modulo 2^32. -/
  | iadd (d : BitVec 6) (a : BitVec 6) (b : BitVec 6) (g : BitVec 3) (st : BitVec 3)
  /-- ISUB (R400). Subtracts lane integers modulo 2^32. -/
  | isub (d : BitVec 6) (a : BitVec 6) (b : BitVec 6) (g : BitVec 3) (st : BitVec 3)
  /-- IADDI (R401). Adds a signed immediate to each lane. -/
  | iaddi (d : BitVec 6) (a : BitVec 6) (im : BitVec 9) (st : BitVec 3)
  /-- IMUL (R400). Multiplies lane integers, keeping the low word. -/
  | imul (d : BitVec 6) (a : BitVec 6) (b : BitVec 6) (g : BitVec 3) (st : BitVec 3)
  /-- IMULH (R400). Gives the signed high word of the product. -/
  | imulh (d : BitVec 6) (a : BitVec 6) (b : BitVec 6) (g : BitVec 3) (st : BitVec 3)
  /-- IMULH_U (R400). Gives the unsigned high word of the product. -/
  | imulhU (d : BitVec 6) (a : BitVec 6) (b : BitVec 6) (g : BitVec 3) (st : BitVec 3)
  /-- IMAD (R400). Multiply-add modulo 2^32, with vD as addend. -/
  | imad (d : BitVec 6) (a : BitVec 6) (b : BitVec 6) (g : BitVec 3) (st : BitVec 3)
  /-- IMIN (R400). Signed minimum. -/
  | imin (d : BitVec 6) (a : BitVec 6) (b : BitVec 6) (g : BitVec 3) (st : BitVec 3)
  /-- IMIN_U (R400). Unsigned minimum. -/
  | iminU (d : BitVec 6) (a : BitVec 6) (b : BitVec 6) (g : BitVec 3) (st : BitVec 3)
  /-- IMAX (R400). Signed maximum. -/
  | imax (d : BitVec 6) (a : BitVec 6) (b : BitVec 6) (g : BitVec 3) (st : BitVec 3)
  /-- IMAX_U (R400). Unsigned maximum. -/
  | imaxU (d : BitVec 6) (a : BitVec 6) (b : BitVec 6) (g : BitVec 3) (st : BitVec 3)
  /-- IABS (R400). Signed absolute value. -/
  | iabs (d : BitVec 6) (a : BitVec 6) (g : BitVec 3) (st : BitVec 3)
  /-- ADD64 (R337). Adds 64-bit integers held in register pairs. -/
  | add64 (d : BitVec 6) (a : BitVec 6) (b : BitVec 6) (g : BitVec 3) (st : BitVec 3)
  /-- LEA (R416). 64-bit base plus 4 x index. -/
  | lea (d : BitVec 6) (a : BitVec 6) (b : BitVec 6) (g : BitVec 3) (st : BitVec 3)
  /-- LEA_D (R416). 64-bit base plus 8 x index. -/
  | leaD (d : BitVec 6) (a : BitVec 6) (b : BitVec 6) (g : BitVec 3) (st : BitVec 3)
  /-- AND (R339). Bitwise AND. -/
  | and (d : BitVec 6) (a : BitVec 6) (b : BitVec 6) (g : BitVec 3) (st : BitVec 3)
  /-- OR (R429). Bitwise OR. -/
  | or (d : BitVec 6) (a : BitVec 6) (b : BitVec 6) (g : BitVec 3) (st : BitVec 3)
  /-- XOR (R471). Bitwise exclusive OR. -/
  | xor (d : BitVec 6) (a : BitVec 6) (b : BitVec 6) (g : BitVec 3) (st : BitVec 3)
  /-- NOT (R428). Bitwise complement. -/
  | not (d : BitVec 6) (a : BitVec 6) (g : BitVec 3) (st : BitVec 3)
  /-- ANDI (R340). AND with a zero-extended immediate. -/
  | andi (d : BitVec 6) (a : BitVec 6) (im : BitVec 9) (st : BitVec 3)
  /-- ORI (R430). OR with a zero-extended immediate. -/
  | ori (d : BitVec 6) (a : BitVec 6) (im : BitVec 9) (st : BitVec 3)
  /-- XORI (R471). XOR with a zero-extended immediate. -/
  | xori (d : BitVec 6) (a : BitVec 6) (im : BitVec 9) (st : BitVec 3)
  /-- IADD_SAT (R402). Saturating addition. -/
  | iaddSat (d : BitVec 6) (a : BitVec 6) (b : BitVec 6) (g : BitVec 3) (st : BitVec 3)
  /-- SHL (R448). Shift left by a register amount. -/
  | shl (d : BitVec 6) (a : BitVec 6) (b : BitVec 6) (g : BitVec 3) (st : BitVec 3)
  /-- SHR (R448). Logical shift right by a register amount. -/
  | shr (d : BitVec 6) (a : BitVec 6) (b : BitVec 6) (g : BitVec 3) (st : BitVec 3)
  /-- SAR (R448). Arithmetic shift right by a register amount. -/
  | sar (d : BitVec 6) (a : BitVec 6) (b : BitVec 6) (g : BitVec 3) (st : BitVec 3)
  /-- SHLI (R448). Shift left by an immediate. -/
  | shli (d : BitVec 6) (a : BitVec 6) (im : BitVec 5) (st : BitVec 3)
  /-- SHRI (R448). Logical shift right by an immediate. -/
  | shri (d : BitVec 6) (a : BitVec 6) (im : BitVec 5) (st : BitVec 3)
  /-- SARI (R448). Arithmetic shift right by an immediate. -/
  | sari (d : BitVec 6) (a : BitVec 6) (im : BitVec 5) (st : BitVec 3)
  /-- POPC (R436). Population count. -/
  | popc (d : BitVec 6) (a : BitVec 6) (g : BitVec 3) (st : BitVec 3)
  /-- CLZ (R363). Count leading zeros. -/
  | clz (d : BitVec 6) (a : BitVec 6) (g : BitVec 3) (st : BitVec 3)
  /-- BREV (R351). Bit reversal. -/
  | brev (d : BitVec 6) (a : BitVec 6) (g : BitVec 3) (st : BitVec 3)
  /-- BFE (R347). Unsigned bit-field extract. -/
  | bfe (d : BitVec 6) (a : BitVec 6) (b : BitVec 6) (g : BitVec 3) (st : BitVec 3)
  /-- BFE_S (R347). Signed bit-field extract. -/
  | bfeS (d : BitVec 6) (a : BitVec 6) (b : BitVec 6) (g : BitVec 3) (st : BitVec 3)
  /-- BFI (R348). Bit-field insert into vD. -/
  | bfi (d : BitVec 6) (a : BitVec 6) (b : BitVec 6) (g : BitVec 3) (st : BitVec 3)
  /-- ITEST (R407). 32-bit integer comparison into a lane predicate. -/
  | itest (p : BitVec 3) (c : BitVec 3) (a : BitVec 6) (b : BitVec 6) (g : BitVec 3) (st : BitVec 3)
  /-- SEL (R451). Per-lane selection by a predicate. -/
  | sel (d : BitVec 6) (a : BitVec 6) (b : BitVec 6) (m : BitVec 3) (st : BitVec 3)
  /-- MOV (R425). Register copy keeping the tag. -/
  | mov (d : BitVec 6) (a : BitVec 6) (g : BitVec 3) (st : BitVec 3)
  /-- MOVI (R426). Moves a sign-extended immediate. -/
  | movi (d : BitVec 6) (im : BitVec 15) (st : BitVec 3)
  /-- SLANE (R452). Each lane takes a value from another lane of its fragment. -/
  | slane (d : BitVec 6) (a : BitVec 6) (b : BitVec 6) (m : BitVec 3) (st : BitVec 3)
  /-- ISUB_SAT (R402). Saturating subtraction. -/
  | isubSat (d : BitVec 6) (a : BitVec 6) (b : BitVec 6) (g : BitVec 3) (st : BitVec 3)
  /-- IDOT4 (R405). 8-bit integer dot product with accumulation. -/
  | idot4 (d : BitVec 6) (a : BitVec 6) (b : BitVec 6) (g : BitVec 3) (st : BitVec 3)
  /-- IDOT8 (R405). 4-bit integer dot product with accumulation. -/
  | idot8 (d : BitVec 6) (a : BitVec 6) (b : BitVec 6) (g : BitVec 3) (st : BitVec 3)
  /-- PSWZ (R438). Byte swizzle from an eight-byte pool. -/
  | pswz (d : BitVec 6) (a : BitVec 6) (b : BitVec 6) (g : BitVec 3) (st : BitVec 3)
  /-- ITEST_D (R407). 64-bit integer comparison into a lane predicate. -/
  | itestD (p : BitVec 3) (c : BitVec 3) (a : BitVec 6) (b : BitVec 6) (g : BitVec 3) (st : BitVec 3)
  /-- FADD (R374). Float addition. -/
  | fadd (d : BitVec 6) (a : BitVec 6) (b : BitVec 6) (g : BitVec 3) (st : BitVec 3)
  /-- FSUB (R374). Float subtraction. -/
  | fsub (d : BitVec 6) (a : BitVec 6) (b : BitVec 6) (g : BitVec 3) (st : BitVec 3)
  /-- FMUL (R374). Float multiplication. -/
  | fmul (d : BitVec 6) (a : BitVec 6) (b : BitVec 6) (g : BitVec 3) (st : BitVec 3)
  /-- FMA (R386). Fused multiply-add. -/
  | fma (d : BitVec 6) (a : BitVec 6) (b : BitVec 6) (g : BitVec 3) (st : BitVec 3)
  /-- FMS (R386). Fused multiply-subtract. -/
  | fms (d : BitVec 6) (a : BitVec 6) (b : BitVec 6) (g : BitVec 3) (st : BitVec 3)
  /-- FNMA (R386). Fused negated multiply-add, d - a x b. -/
  | fnma (d : BitVec 6) (a : BitVec 6) (b : BitVec 6) (g : BitVec 3) (st : BitVec 3)
  /-- FMIN (R375). Float minimum. -/
  | fmin (d : BitVec 6) (a : BitVec 6) (b : BitVec 6) (g : BitVec 3) (st : BitVec 3)
  /-- FMAX (R375). Float maximum. -/
  | fmax (d : BitVec 6) (a : BitVec 6) (b : BitVec 6) (g : BitVec 3) (st : BitVec 3)
  /-- FABS (R373). Clears the sign bit. -/
  | fabs (d : BitVec 6) (a : BitVec 6) (g : BitVec 3) (st : BitVec 3)
  /-- FNEG (R373). Inverts the sign bit. -/
  | fneg (d : BitVec 6) (a : BitVec 6) (g : BitVec 3) (st : BitVec 3)
  /-- FTEST (R392). Float comparison into a lane predicate. -/
  | ftest (p : BitVec 3) (c : BitVec 3) (a : BitVec 6) (b : BitVec 6) (g : BitVec 3) (st : BitVec 3)
  /-- FCLASS (R376). Classifies float values into a class mask. -/
  | fclass (d : BitVec 6) (a : BitVec 6) (g : BitVec 3) (st : BitVec 3)
  /-- FRCP (R387). Reciprocal. -/
  | frcp (d : BitVec 6) (a : BitVec 6) (g : BitVec 3) (st : BitVec 3)
  /-- FRSQ (R387). Reciprocal square root. -/
  | frsq (d : BitVec 6) (a : BitVec 6) (g : BitVec 3) (st : BitVec 3)
  /-- FSQRT (R387). Square root. -/
  | fsqrt (d : BitVec 6) (a : BitVec 6) (g : BitVec 3) (st : BitVec 3)
  /-- FEXP2 (R387). Power of two. -/
  | fexp2 (d : BitVec 6) (a : BitVec 6) (g : BitVec 3) (st : BitVec 3)
  /-- FLOG2 (R387). Base-2 logarithm. -/
  | flog2 (d : BitVec 6) (a : BitVec 6) (g : BitVec 3) (st : BitVec 3)
  /-- FSIN (R387). Sine of pi x a. -/
  | fsin (d : BitVec 6) (a : BitVec 6) (g : BitVec 3) (st : BitVec 3)
  /-- FCOS (R387). Cosine of pi x a. -/
  | fcos (d : BitVec 6) (a : BitVec 6) (g : BitVec 3) (st : BitVec 3)
  /-- FRND (R390). Rounds to an integral value in the same format. -/
  | frnd (d : BitVec 6) (a : BitVec 6) (f : BitVec 5) (r : BitVec 3) (st : BitVec 3)
  /-- FSCL (R391). Scales by a power of two. -/
  | fscl (d : BitVec 6) (a : BitVec 6) (b : BitVec 6) (g : BitVec 3) (st : BitVec 3)
  /-- FCVT (R378). Converts between float formats. -/
  | fcvt (d : BitVec 6) (a : BitVec 6) (f : BitVec 5) (r : BitVec 3) (st : BitVec 3)
  /-- ICVT (R403). Converts between integer formats, or between integer and float formats. -/
  | icvt (d : BitVec 6) (a : BitVec 6) (f : BitVec 5) (r : BitVec 3) (st : BitVec 3)
  /-- TAG (R460). Copies a register and sets its format tag. -/
  | tag (d : BitVec 6) (a : BitVec 6) (f : BitVec 5) (st : BitVec 3)
  /-- FDOT2 (R380). Two-element dot product with FP32 accumulation. -/
  | fdot2 (d : BitVec 6) (a : BitVec 6) (b : BitVec 6) (g : BitVec 3) (st : BitVec 3)
  /-- FDOT4 (R380). Four-element 8-bit float dot product with FP32 accumulation. -/
  | fdot4 (d : BitVec 6) (a : BitVec 6) (b : BitVec 6) (g : BitVec 3) (st : BitVec 3)
  /-- ORIENT2 (R431). Exact 2D orientation sign. -/
  | orient2 (d : BitVec 6) (a : BitVec 6) (im : BitVec 6) (x : BitVec 1) (n : BitVec 1) (f : BitVec 1)
  /-- ORIENT3 (R431). Exact 3D orientation sign. -/
  | orient3 (d : BitVec 6) (a : BitVec 6) (im : BitVec 6) (x : BitVec 1) (n : BitVec 1) (f : BitVec 1)
  /-- INCIRC (R406). Exact in-circle test. -/
  | incirc (d : BitVec 6) (a : BitVec 6) (im : BitVec 6) (x : BitVec 1) (n : BitVec 1) (f : BitVec 1)
  /-- INSPH (R406). Exact in-sphere test. -/
  | insph (d : BitVec 6) (a : BitVec 6) (im : BitVec 6) (x : BitVec 1) (n : BitVec 1) (f : BitVec 1)
  /-- SEGX (R450). Exact segment crossing class. -/
  | segx (d : BitVec 6) (a : BitVec 6) (im : BitVec 6) (x : BitVec 1) (n : BitVec 1) (f : BitVec 1)
  /-- LD_B (R411). Loads a zero-extended byte per lane. -/
  | ldB (d : BitVec 6) (a : BitVec 6) (o : BitVec 9) (g : BitVec 3)
  /-- LD_BS (R411). Loads a sign-extended byte per lane. -/
  | ldBs (d : BitVec 6) (a : BitVec 6) (o : BitVec 9) (g : BitVec 3)
  /-- LD_H (R411). Loads a zero-extended halfword per lane. -/
  | ldH (d : BitVec 6) (a : BitVec 6) (o : BitVec 9) (g : BitVec 3)
  /-- LD_HS (R411). Loads a sign-extended halfword per lane. -/
  | ldHs (d : BitVec 6) (a : BitVec 6) (o : BitVec 9) (g : BitVec 3)
  /-- LD_W (R411). Loads a word per lane. -/
  | ldW (d : BitVec 6) (a : BitVec 6) (o : BitVec 9) (g : BitVec 3)
  /-- LD_D (R411). Loads a doubleword per lane into a pair. -/
  | ldD (d : BitVec 6) (a : BitVec 6) (o : BitVec 9) (g : BitVec 3)
  /-- LD_Q (R411). Loads a quadword per lane into four registers. -/
  | ldQ (d : BitVec 6) (a : BitVec 6) (o : BitVec 9) (g : BitVec 3)
  /-- LD_NT (R411). Non-temporal word load. -/
  | ldNt (d : BitVec 6) (a : BitVec 6) (o : BitVec 9) (g : BitVec 3)
  /-- ST_B (R455). Stores a byte per lane. -/
  | stB (d : BitVec 6) (a : BitVec 6) (o : BitVec 9) (g : BitVec 3)
  /-- ST_H (R455). Stores a halfword per lane. -/
  | stH (d : BitVec 6) (a : BitVec 6) (o : BitVec 9) (g : BitVec 3)
  /-- ST_W (R455). Stores a word per lane. -/
  | stW (d : BitVec 6) (a : BitVec 6) (o : BitVec 9) (g : BitVec 3)
  /-- ST_D (R455). Stores a doubleword per lane. -/
  | stD (d : BitVec 6) (a : BitVec 6) (o : BitVec 9) (g : BitVec 3)
  /-- ST_Q (R455). Stores a quadword per lane. -/
  | stQ (d : BitVec 6) (a : BitVec 6) (o : BitVec 9) (g : BitVec 3)
  /-- ST_OF (R458). Ordered-flag store at pod scope. -/
  | stOf (d : BitVec 6) (a : BitVec 6) (w : BitVec 2) (g : BitVec 3)
  /-- LDA (R415). Acquire load at a scope. -/
  | lda (d : BitVec 6) (a : BitVec 6) (c : BitVec 3) (w : BitVec 2) (g : BitVec 3)
  /-- STL (R459). Release store at a scope. -/
  | stl (d : BitVec 6) (a : BitVec 6) (c : BitVec 3) (w : BitVec 2) (g : BitVec 3)
  /-- ATOM_W (R342). 32-bit per-lane atomic read-modify-write. -/
  | atomW (d : BitVec 6) (a : BitVec 6) (b : BitVec 6) (c : BitVec 3) (o : BitVec 3)
  /-- ATOM_D (R342). 64-bit per-lane atomic read-modify-write. -/
  | atomD (d : BitVec 6) (a : BitVec 6) (b : BitVec 6) (c : BitVec 3) (o : BitVec 3)
  /-- CAS_W (R358). 32-bit per-lane compare-and-swap. -/
  | casW (d : BitVec 6) (a : BitVec 6) (b : BitVec 6) (c : BitVec 3)
  /-- CAS_D (R358). 64-bit per-lane compare-and-swap. -/
  | casD (d : BitVec 6) (a : BitVec 6) (b : BitVec 6) (c : BitVec 3)
  /-- PREF (R437). Prefetches lines toward L1 and L2, or L2 only. -/
  | pref (l : BitVec 1) (a : BitVec 6) (o : BitVec 9) (g : BitVec 3)
  /-- NOP (R427). No operation apart from its stall count. -/
  | nop (st : BitVec 3)
  /-- UADD (R465). Uniform addition. -/
  | uadd (d : BitVec 5) (a : BitVec 5) (b : BitVec 5) (q : BitVec 2) (st : BitVec 3)
  /-- USUB (R465). Uniform subtraction. -/
  | usub (d : BitVec 5) (a : BitVec 5) (b : BitVec 5) (q : BitVec 2) (st : BitVec 3)
  /-- UADDI (R465). Uniform add of a signed immediate. -/
  | uaddi (d : BitVec 5) (a : BitVec 5) (im : BitVec 11) (st : BitVec 3)
  /-- UMUL (R465). Uniform multiply, low word. -/
  | umul (d : BitVec 5) (a : BitVec 5) (b : BitVec 5) (q : BitVec 2) (st : BitVec 3)
  /-- UMULH (R465). Uniform signed high word of the product. -/
  | umulh (d : BitVec 5) (a : BitVec 5) (b : BitVec 5) (q : BitVec 2) (st : BitVec 3)
  /-- UMULH_U (R465). Uniform unsigned high word of the product. -/
  | umulhU (d : BitVec 5) (a : BitVec 5) (b : BitVec 5) (q : BitVec 2) (st : BitVec 3)
  /-- UADD64 (R466). Uniform 64-bit pair addition. -/
  | uadd64 (d : BitVec 5) (a : BitVec 5) (b : BitVec 5) (q : BitVec 2) (st : BitVec 3)
  /-- UAND (R465). Uniform AND. -/
  | uand (d : BitVec 5) (a : BitVec 5) (b : BitVec 5) (q : BitVec 2) (st : BitVec 3)
  /-- UOR (R465). Uniform OR. -/
  | uor (d : BitVec 5) (a : BitVec 5) (b : BitVec 5) (q : BitVec 2) (st : BitVec 3)
  /-- UXOR (R465). Uniform XOR. -/
  | uxor (d : BitVec 5) (a : BitVec 5) (b : BitVec 5) (q : BitVec 2) (st : BitVec 3)
  /-- UANDI (R465). Uniform AND with an immediate. -/
  | uandi (d : BitVec 5) (a : BitVec 5) (im : BitVec 11) (st : BitVec 3)
  /-- UORI (R465). Uniform OR with an immediate. -/
  | uori (d : BitVec 5) (a : BitVec 5) (im : BitVec 11) (st : BitVec 3)
  /-- USHL (R465). Uniform shift left. -/
  | ushl (d : BitVec 5) (a : BitVec 5) (b : BitVec 5) (q : BitVec 2) (st : BitVec 3)
  /-- USHR (R465). Uniform logical shift right. -/
  | ushr (d : BitVec 5) (a : BitVec 5) (b : BitVec 5) (q : BitVec 2) (st : BitVec 3)
  /-- USAR (R465). Uniform arithmetic shift right. -/
  | usar (d : BitVec 5) (a : BitVec 5) (b : BitVec 5) (q : BitVec 2) (st : BitVec 3)
  /-- USHLI (R465). Uniform shift left by an immediate. -/
  | ushli (d : BitVec 5) (a : BitVec 5) (im : BitVec 5) (st : BitVec 3)
  /-- USHRI (R465). Uniform logical shift right by an immediate. -/
  | ushri (d : BitVec 5) (a : BitVec 5) (im : BitVec 5) (st : BitVec 3)
  /-- UMIN (R465). Uniform signed minimum. -/
  | umin (d : BitVec 5) (a : BitVec 5) (b : BitVec 5) (q : BitVec 2) (st : BitVec 3)
  /-- UMIN_U (R465). Uniform unsigned minimum. -/
  | uminU (d : BitVec 5) (a : BitVec 5) (b : BitVec 5) (q : BitVec 2) (st : BitVec 3)
  /-- UMAX (R465). Uniform signed maximum. -/
  | umax (d : BitVec 5) (a : BitVec 5) (b : BitVec 5) (q : BitVec 2) (st : BitVec 3)
  /-- UMAX_U (R465). Uniform unsigned maximum. -/
  | umaxU (d : BitVec 5) (a : BitVec 5) (b : BitVec 5) (q : BitVec 2) (st : BitVec 3)
  /-- USETP (R466). Uniform comparison into a q predicate. -/
  | usetp (d : BitVec 5) (a : BitVec 5) (b : BitVec 5) (c : BitVec 3) (q : BitVec 2) (st : BitVec 3)
  /-- USEL (R466). Uniform selection by a q predicate. -/
  | usel (d : BitVec 5) (a : BitVec 5) (b : BitVec 5) (m : BitVec 2) (q : BitVec 2) (st : BitVec 3)
  /-- UMOV (R465). Uniform register move. -/
  | umov (d : BitVec 5) (a : BitVec 5) (q : BitVec 2) (st : BitVec 3)
  /-- UMOVI (R465). Uniform move of a sign-extended immediate. -/
  | umovi (d : BitVec 5) (im : BitVec 16) (st : BitVec 3)
  /-- ULUI (R465). Uniform load of an upper immediate. -/
  | ului (d : BitVec 5) (im : BitVec 16) (st : BitVec 3)
  /-- UPOPC (R465). Uniform population count. -/
  | upopc (d : BitVec 5) (a : BitVec 5) (q : BitVec 2) (st : BitVec 3)
  /-- UCLZ (R465). Uniform count of leading zeros. -/
  | uclz (d : BitVec 5) (a : BitVec 5) (q : BitVec 2) (st : BitVec 3)
  /-- UBFE (R466). Uniform bit-field extract. -/
  | ubfe (d : BitVec 5) (a : BitVec 5) (b : BitVec 5) (m : BitVec 1) (q : BitVec 2) (st : BitVec 3)
  /-- UBFI (R466). Uniform bit-field insert. -/
  | ubfi (d : BitVec 5) (a : BitVec 5) (b : BitVec 5) (c : BitVec 5)
  /-- UMAD (R466). Uniform multiply-add. -/
  | umad (d : BitVec 5) (a : BitVec 5) (b : BitVec 5) (c : BitVec 5)
  /-- ULD_W (R467). Uniform word load. -/
  | uldW (d : BitVec 5) (a : BitVec 5) (im : BitVec 11) (st : BitVec 3)
  /-- ULD_D (R467). Uniform doubleword load into a pair. -/
  | uldD (d : BitVec 5) (a : BitVec 5) (im : BitVec 11) (st : BitVec 3)
  /-- UST_W (R467). Uniform word store. -/
  | ustW (d : BitVec 5) (a : BitVec 5) (im : BitVec 11) (st : BitVec 3)
  /-- UST_D (R467). Uniform doubleword store. -/
  | ustD (d : BitVec 5) (a : BitVec 5) (im : BitVec 11) (st : BitVec 3)
  /-- RFAL (R446). Reads the first lane of a set, or its index. -/
  | rfal (d : BitVec 5) (v : BitVec 6) (p : BitVec 3) (m : BitVec 2) (st : BitVec 3)
  /-- RDL (R446). Reads a named lane into a uniform register. -/
  | rdl (d : BitVec 5) (v : BitVec 6) (b : BitVec 5) (st : BitVec 3)
  /-- VLANE (R469). Summarises a predicate or value over the fragment's lanes. -/
  | vlane (d : BitVec 5) (v : BitVec 6) (p : BitVec 3) (m : BitVec 2) (st : BitVec 3)
  /-- ULD_H (R467). Uniform halfword load. -/
  | uldH (d : BitVec 5) (a : BitVec 5) (im : BitVec 11) (st : BitVec 3)
  /-- UST_H (R467). Uniform halfword store. -/
  | ustH (d : BitVec 5) (a : BitVec 5) (im : BitVec 11) (st : BitVec 3)
  /-- ULD_B (R467). Uniform byte load. -/
  | uldB (d : BitVec 5) (a : BitVec 5) (im : BitVec 11) (st : BitVec 3)
  /-- UST_B (R467). Uniform byte store. -/
  | ustB (d : BitVec 5) (a : BitVec 5) (im : BitVec 11) (st : BitVec 3)
  /-- BRA (R350). Relative branch of the issuing fragment. -/
  | bra (q : BitVec 2) (o : BitVec 22)
  /-- BRP (R352). Predicated branch with a hinge, which may split the fragment. -/
  | brp (p : BitVec 3) (o : BitVec 11) (h : BitVec 10)
  /-- CALL (R355). Relative call with a window slide. -/
  | call (f : BitVec 3) (o : BitVec 21)
  /-- RET (R447). Returns from a call, sliding the window down. -/
  | ret (q : BitVec 2) (st : BitVec 3)
  /-- GROW (R395). Slides the window up without a call. -/
  | grow (f : BitVec 3)
  /-- SHRINK (R447). Undoes a GROW. -/
  | shrink (q : BitVec 2) (st : BitVec 3)
  /-- OVLD (R434). Loads an overlay into a slot and holds it. -/
  | ovld (d : BitVec 5) (im : BitVec 8) (st : BitVec 3)
  /-- OVCALL (R433). Calls across overlays. -/
  | ovcall (q : BitVec 2) (o : BitVec 22)
  /-- OVRET (R435). Returns from an OVCALL. -/
  | ovret (q : BitVec 2) (st : BitVec 3)
  /-- EXIT (R369). Ends the executing lanes, raising any pending engine failure first. -/
  | exit (q : BitVec 2) (st : BitVec 3)
  /-- TRAP (R463). Calls a service on the system cores and suspends the group. -/
  | trap (im : BitVec 11) (st : BitVec 3)
  /-- BKPT (R349). Raises a breakpoint trap. -/
  | bkpt (im : BitVec 11) (st : BitVec 3)
  /-- YIELD (R472). Gives way to other groups. -/
  | yield (q : BitVec 2) (st : BitVec 3)
  /-- BRX (R354). Indirect branch within the current overlay. -/
  | brx (a : BitVec 5) (q : BitVec 2) (st : BitVec 3)
  /-- CALLX (R356). Indirect call with a window slide. -/
  | callx (a : BitVec 5) (f : BitVec 3) (q : BitVec 2) (st : BitVec 3)
  /-- SRD (R453). Reads a special register. -/
  | srd (k : BitVec 1) (d : BitVec 6) (r : BitVec 11) (st : BitVec 3)
  /-- SWR (R454). Writes a special register. -/
  | swr (d : BitVec 5) (r : BitVec 11) (st : BitVec 3)
  /-- TAGR (R461). Reads the tag of a lane or tile register. -/
  | tagr (d : BitVec 5) (v : BitVec 6) (m : BitVec 2) (st : BitVec 3)
  /-- BAR_INIT (R170). Initialises a barrier object's EXPECT and counts. -/
  | barInit (d : BitVec 5) (a : BitVec 5) (b : BitVec 5) (q : BitVec 2) (st : BitVec 3)
  /-- BAR_ARV (R167). One arrival on a barrier object. -/
  | barArv (d : BitVec 5) (a : BitVec 5) (c : BitVec 3) (q : BitVec 2) (st : BitVec 3)
  /-- BAR_WAIT (R170). Waits until a barrier phase has completed. -/
  | barWait (d : BitVec 5) (a : BitVec 5) (c : BitVec 3) (q : BitVec 2) (st : BitVec 3)
  /-- BAR_ARW (R170). Arrives and then waits on the phase returned. -/
  | barArw (d : BitVec 5) (a : BitVec 5) (c : BitVec 3) (q : BitVec 2) (st : BitVec 3)
  /-- BAR_TEST (R170). Reports whether a phase has completed, optionally joining. -/
  | barTest (d : BitVec 5) (a : BitVec 5) (j : BitVec 1) (c : BitVec 3) (q : BitVec 2) (st : BitVec 3)
  /-- RACQ (R175). Acquires a free stage-ring slot. -/
  | racq (d : BitVec 5) (a : BitVec 5) (q : BitVec 2) (st : BitVec 3)
  /-- RPUB (R175). Publishes an acquired ring slot. -/
  | rpub (d : BitVec 5) (a : BitVec 5) (b : BitVec 5) (q : BitVec 2) (st : BitVec 3)
  /-- RTAKE (R175). Takes the next published ring slot. -/
  | rtake (d : BitVec 5) (a : BitVec 5) (q : BitVec 2) (st : BitVec 3)
  /-- RREL (R175). Releases the oldest taken ring slot. -/
  | rrel (d : BitVec 5) (a : BitVec 5) (q : BitVec 2) (st : BitVec 3)
  /-- WAITC (R180). Waits until an engine counter is at most N. -/
  | waitc (c : BitVec 2) (n : BitVec 9) (st : BitVec 3)
  /-- FENCE (R382). Orders the group's accesses at a scope. -/
  | fence (c : BitVec 3) (q : BitVec 2) (st : BitVec 3)
  /-- FENCER (R384). Remote store fence through marker sets. -/
  | fencer (q : BitVec 2) (st : BitVec 3)
  /-- MCAS (R417). Multi-word compare-and-swap. -/
  | mcas (d : BitVec 5) (a : BitVec 5) (q : BitVec 2) (st : BitVec 3)
  /-- ATOMU (R345). Uniform 32-bit atomic read-modify-write. -/
  | atomu (d : BitVec 5) (a : BitVec 5) (b : BitVec 5) (o : BitVec 3) (sc : BitVec 3)
  /-- CASU (R359). Uniform 32-bit compare-and-swap. -/
  | casu (d : BitVec 5) (a : BitVec 5) (b : BitVec 5) (c : BitVec 5) (sc : BitVec 3)
  /-- COPY (R365). Copy-engine byte-range copy. -/
  | copy (a : BitVec 5) (b : BitVec 5) (c : BitVec 5) (n : BitVec 1)
  /-- COPY2D (R366). Copy-engine copy of a rectangle of rows. -/
  | copy2d (a : BitVec 5) (b : BitVec 5) (c : BitVec 5) (n : BitVec 1)
  /-- GATHER (R394). Copies indexed elements into a contiguous range. -/
  | gather (a : BitVec 5) (b : BitVec 5) (c : BitVec 5) (n : BitVec 1)
  /-- SCATTER (R449). Copies contiguous elements to indexed places. -/
  | scatter (a : BitVec 5) (b : BitVec 5) (c : BitVec 5) (n : BitVec 1)
  /-- FILL (R385). Fills a byte range with a repeated pattern. -/
  | fill (a : BitVec 5) (b : BitVec 5) (c : BitVec 5)
  /-- COPYR (R367). Copies into the next stage-ring slot and publishes it. -/
  | copyr (a : BitVec 5) (b : BitVec 5) (c : BitVec 5) (n : BitVec 1)
  /-- MMA (R422). 64 x 64 matrix multiply-accumulate. -/
  | mma (z : BitVec 3) (a : BitVec 5) (b : BitVec 5) (y : BitVec 3) (im : BitVec 1) (j : BitVec 1)
  /-- HADT (R396). Hadamard transform of a tile register. -/
  | hadt (z : BitVec 3) (y : BitVec 3) (h : BitVec 1) (n : BitVec 2)
  /-- QTILE (R441). Quantises a tile into row-blocked and column-blocked copies. -/
  | qtile (a : BitVec 5) (b : BitVec 5) (y : BitVec 3) (m : BitVec 1) (u : BitVec 1) (t : BitVec 2)
  /-- ZLD (R476). Loads a tile from memory. -/
  | zld (z : BitVec 3) (a : BitVec 5) (im : BitVec 1)
  /-- ZST (R478). Stores a tile to memory. -/
  | zst (a : BitVec 5) (y : BitVec 3)
  /-- ZSTA (R479). Accumulates a tile into memory as one indivisible update. -/
  | zsta (a : BitVec 5) (y : BitVec 3)
  /-- ZZERO (R481). Zeroes a tile. -/
  | zzero (z : BitVec 3) (im : BitVec 1)
  /-- ZCVT (R475). Converts a tile between FP32 and I32. -/
  | zcvt (z : BitVec 3) (y : BitVec 3) (r : BitVec 2) (c : BitVec 2)
  /-- ZMOV (R477). Copies or transposes a tile. -/
  | zmov (z : BitVec 3) (y : BitVec 3) (t : BitVec 1)
  /-- TPREF (R462). Prefetches a tile's rows into L2. -/
  | tpref (a : BitVec 5)
  /-- LAUNCH (R409). Creates a child launch from a launch record. -/
  | launch (d : BitVec 5) (a : BitVec 5) (q : BitVec 2) (st : BitVec 3)
  /-- CANCEL (R357). Cancels a level of work. -/
  | cancel (d : BitVec 5) (a : BitVec 5) (l : BitVec 3) (q : BitVec 2) (st : BitVec 3)
  /-- CCWAIT (R361). Waits on, or polls, a completion counter. -/
  | ccwait (d : BitVec 5) (a : BitVec 5) (m : BitVec 4) (q : BitVec 2) (st : BitVec 3)
  /-- ALLOC (R338). Takes a block from a device-side heap. -/
  | alloc (d : BitVec 5) (a : BitVec 5) (b : BitVec 5) (q : BitVec 2) (st : BitVec 3)
  /-- FREE (R389). Returns a block to a device-side heap. -/
  | free (d : BitVec 5) (a : BitVec 5) (b : BitVec 5) (q : BitVec 2) (st : BitVec 3)
  /-- DBELL (R243). Rings a doorbell through the doorbell proxy. -/
  | dbell (d : BitVec 5) (a : BitVec 5) (b : BitVec 5) (q : BitVec 2) (st : BitVec 3)
  /-- CCTL (R360). Cache retention control over a range. -/
  | cctl (a : BitVec 5) (b : BitVec 5) (m : BitVec 4) (q : BitVec 2) (st : BitVec 3)
  /-- SUBMISSION_ENTRY_READ (R53). While a submission queue is enabled, QHEAD differs from QTAIL and the queue has
  room, the device reads the entry at QHEAD, admits its record and advances QHEAD. -/
  | submissionEntryRead
  /-- PENDING_LAUNCH_ADMIT (R40). A record in a unit's pending-launch queue is admitted once 64 cycles have passed,
  the record ahead has gone and its priority's queue has room. -/
  | pendingLaunchAdmit
  /-- HELD_LAUNCH_RECHECK (R55). The scheduler rereads a held launch's predecessor counters when a completion
  counter of the job reaches 0, or after 4,096 cycles, and makes the launch eligible. -/
  | heldLaunchRecheck
  /-- PLACEMENT_OPPORTUNITY (R57). Every 2 cycles a die's placer places the next unit or cluster of the first
  fitting candidate, taken by effective priority and age. -/
  | placementOpportunity
  /-- OVERLAY_PLACEMENT_LOAD_DONE (R62). A scheduler-commanded overlay load into a slot completes or fails, and the
  unit's groups become ready or stop with an overlay-absent fault. -/
  | overlayPlacementLoadDone
  /-- ISSUE_CYCLE (R66). Each cycle, each partition chooses the oldest ready group of the first role in rotation
  whose engine is not busy, and advances its rotation pointer. -/
  | issueCycle
  /-- SWAPIDLE_EXPIRY (R70). A group that has waited SWAPIDLE x 16 cycles in a swap-eligible wait is swapped out. -/
  | swapidleExpiry
  /-- GROUP_RESUME (R71). A swapped-out group that has become ready takes the next free resident slot on its core. -/
  | groupResume
  /-- REGISTER_LINE_LOAD (R75). A register line absent from its cache arrives from the context image, which frees it
  on the scoreboard. -/
  | registerLineLoad
  /-- MU_IDLE_ENTRY (R72). A matrix unit that has executed no operation for 1,024 cycles enters idle. -/
  | muIdleEntry
  /-- MU_LEAVE_IDLE_START (R72). A queued request to wake a matrix unit begins, within the die's rate limit of 64
  units per 100 cycles and the MUCAP cap. -/
  | muLeaveIdleStart
  /-- MU_LEAVE_IDLE_DONE (R72). A matrix unit finishes leaving idle 32 cycles after it began, and its partition's
  matrix role is no longer busy. -/
  | muLeaveIdleDone
  /-- ACTIVITY_FORECAST_WRITE (R74). Every 256 cycles the scheduler writes AFR0 and AFR1 with their forecast fields
  and an incremented SEQ. -/
  | activityForecastWrite
  /-- GROUP_END (R18). A group whose lanes have all exited ends once its outstanding engine operations complete. -/
  | groupEnd
  /-- UNIT_RETIRE (R41). A unit whose groups have ended, and which has no records left queued, retires and releases
  its scratchpad. -/
  | unitRetire
  /-- CHECK_PHASE_DONE (R219). The checks of a may-fault instruction all pass, which resumes fetch, or one fails,
  which stops the group. -/
  | checkPhaseDone
  /-- LOAD_DATA_RETURN (R154). Sector data for a load arrives, is written to the destination lanes and frees its
  miss-status entry. -/
  | loadDataReturn
  /-- COPY_ENGINE_OP_COMPLETE (R364). A copy-engine operation completes or fails, CTRCOPY is decremented and any
  failure is left pending. -/
  | copyEngineOpComplete
  /-- COPYR_SLOT_ACQUIRE (R178). A stalled COPYR command acquires a ring slot once FREE > 0 and then copies into it. -/
  | copyrSlotAcquire
  /-- MICRO_TILE_COMPLETE (R234). A micro-tile of a matrix operation writes its elements and sets its MTMASK bit. -/
  | microTileComplete
  /-- MATRIX_OP_COMPLETE (R233). A matrix instruction completes, clears MTMASK, decrements CTRMATRIX and frees its
  destination. -/
  | matrixOpComplete
  /-- EPU_LANE_DECIDED (R132). A lane passed to the exact predicate unit is decided at stage 1 or 2 and its result
  is written. -/
  | epuLaneDecided
  /-- GEOMETRIC_COMPLETE (R134). A geometric instruction's last active lane is decided, GEOSTG is written and
  GEODONE is cleared. -/
  | geometricComplete
  /-- EPU_RESET (R140). The management core resets a hung EPU, and the undecided lanes are rerun or their groups
  reissue. -/
  | epuReset
  /-- MU_HANG_RESET (R236). A matrix unit that has completed no micro-tile for 65,536 cycles is declared hung and
  reset, leaving a pending failure of KIND 0x10. -/
  | muHangReset
  /-- MU_RESET_END (R236). A matrix-unit reset ends, within 8,192 cycles, and the partition's matrix role is free
  again. -/
  | muResetEnd
  /-- MCAS_LOCKS_COMPLETE (R186). All of an MCAS's tumbler locks are held, so it compares, writes on success,
  releases the locks and writes kD. -/
  | mcasLocksComplete
  /-- WAITFOR_WALK (R190). Every 2^20 cycles the management core walks both wait-for tables for cycles. -/
  | waitforWalk
  /-- REMOTE_REQUEST (R268). A remote request arrives at the owner chip, is checked and translated, and is performed
  or refused. -/
  | remoteRequest
  /-- REMOTE_REPLY (R271). A data, poisoned-data or error reply reaches the requester and is applied to the
  suspended instruction. -/
  | remoteReply
  /-- REMOTE_STORE_ACK (R272). An acknowledgement or error for a posted remote store decrements its plane count. -/
  | remoteStoreAck
  /-- FAULT_TICKET_RESPONSE (R281). A fault-ticket refusal reaches the requester and its access enters the core's
  ticket table. -/
  | faultTicketResponse
  /-- TICKET_TABLE_ENTRY (R281). A ticket held in a retransmission buffer enters the ticket table when an entry
  frees. -/
  | ticketTableEntry
  /-- REPLAY_NOTICE (R282). Once all eight copies of a replay notice have arrived, the ticket's chain is replayed or
  failed. -/
  | replayNotice
  /-- TKTDONE (R284). The owner's pager closes a ticket and replay notices are sent on all eight planes. -/
  | tktdone
  /-- MARKER_RECEIVED (R275). A marker arrives at its target chip and MCNT for its source and plane advances. -/
  | markerReceived
  /-- FLAGGED_STORE_PERFORM (R276). A held flagged store is performed and acknowledged once its marker set is
  complete. -/
  | flaggedStorePerform
  /-- MARKER_REPORT (R277). A target sends a marker report once a FENCER marker set is complete. -/
  | markerReport
  /-- ESCTIMER_EXPIRY (R288). A packet whose head-of-queue timer reaches ESCTIMER moves, with those behind it, to
  the escape channel. -/
  | esctimerExpiry
  /-- PLANE_DEAD (R285). A plane port that cannot retrain is declared dead, PLANEMAP is remapped and a report is
  posted. -/
  | planeDead
  /-- PLANEMAP_WRITE (R285). A hart writes PLANEMAP; a map that names a dead plane is ignored. -/
  | planemapWrite
  /-- PLANEMAP_CHANGE_APPLY (R285). A change of plane for an index takes effect once the old plane's requests are
  settled. -/
  | planemapChangeApply
  /-- PODMASK_WRITE (R287). PODMASK is written, and in-flight accesses to chips whose bit clears fail. -/
  | podmaskWrite
  /-- MSI_ARRIVAL (R247). A 4-byte posted write to the arrival window becomes an external arrival on the bound
  barrier object, or is discarded. -/
  | msiArrival
  /-- ARRIVAL_QUEUE_APPLY (R247). An arrival that waited in the arrival queue for its object's translation is
  applied. -/
  | arrivalQueueApply
  /-- NOTIFY_ARRIVAL (R248). A hart store to a bound notify page becomes an external arrival. -/
  | notifyArrival
  /-- ARRCMD_BIND (R246). Binds an arrival vector to its barrier object and sets BOUND. -/
  | arrcmdBind
  /-- ARRCMD_UNBIND (R246). Unbinds an arrival vector and clears SIGNAL in its object. -/
  | arrcmdUnbind
  /-- NTB_MAILBOX_WRITE (R253). A peer's write to an NTB message register becomes an arrival or is discarded. -/
  | ntbMailboxWrite
  /-- NTB_INBOUND_ACCESS (R252). A peer's access through BAR2 reaches translated system memory after the frame key
  check. -/
  | ntbInboundAccess
  /-- DOORBELL_MARK (R243). Once a DBELL's earlier accesses are visible at sys scope, its bitmap mark is set and
  CTRIO falls. -/
  | doorbellMark
  /-- TAIL_WRITE_FAILED (R244). The root port reports a failed tail write, which sets ERR and posts a
  configuration-error report. -/
  | tailWriteFailed
  /-- DQ_ENABLE (R242). Setting ENABLE in a doorbell queue record sets TAIL to TAILINIT and clears the bitmap. -/
  | dqEnable
  /-- ATS_TRANSLATION_REQUEST (R249). An endpoint's ATS translation request is walked and answered with permissions. -/
  | atsTranslationRequest
  /-- ENDPOINT_MEMORY_REQUEST (R249). An untranslated or redirected endpoint memory request is translated and
  performed or refused. -/
  | endpointMemoryRequest
  /-- PAGE_REQUEST (R250). An endpoint page request is written into the page request ring. -/
  | pageRequest
  /-- PRGRESP (R250). A hart's write of PRGRESP sends a page request group response. -/
  | prgresp
  /-- ATS_INVALIDATE_COMPLETION (R251). An endpoint returns its Invalidate Completion. -/
  | atsInvalidateCompletion
  /-- ATS_INVALIDATE_TIMEOUT (R251). A function that has not completed within IVTIMEOUT has its port contained by
  DPC. -/
  | atsInvalidateTimeout
  /-- DPC_CONTAINMENT (R238). An uncorrectable error triggers DPC on a root port. -/
  | dpcContainment
  /-- INVALIDATE_PAGE (R218). An invalidation of KIND 0 starts for one 64 KiB page of a job. -/
  | invalidatePage
  /-- INVALIDATE_RANGE (R218). An invalidation of KIND 1 starts for 2^LOG pages. -/
  | invalidateRange
  /-- INVALIDATE_JOB (R218). An invalidation of KIND 2 starts for a whole job and its context record. -/
  | invalidateJob
  /-- INVALIDATE_ALL (R218). An invalidation of KIND 3 starts for every job. -/
  | invalidateAll
  /-- INVALIDATION_COMPLETE (R156). An invalidation completes once caches, last-page registers and endpoints have
  dropped the covered translations, and DONE is set. -/
  | invalidationComplete
  /-- MIGRATION_START (R231). MIGCMD.GO starts a migration, which is checked and begins the drain handshake. -/
  | migrationStart
  /-- MIGRATION_DRAIN_DONE (R231). The drain handshake of the old frame completes, and the copy starts or, for
  eviction, the entry is stored. -/
  | migrationDrainDone
  /-- MIGRATION_COPY_DONE (R231). The frame copy completes, MIGNEW is stored, held accesses are released and DONE is
  set. -/
  | migrationCopyDone
  /-- GROUPCMD_REISSUE (R226). A stopped group becomes ready at the program counter in its image. -/
  | groupcmdReissue
  /-- GROUPCMD_SKIP (R226). The faulting fragment moves past the instruction and the group becomes ready. -/
  | groupcmdSkip
  /-- GROUPCMD_LOSE (R226). The stopped group is lost. -/
  | groupcmdLose
  /-- GROUPCMD_REPLAY (R235). The failed matrix instruction is re-executed for its unfinished micro-tiles. -/
  | groupcmdReplay
  /-- GROUPCMD_STOP (R226). The group stops at its next instruction boundary with FREC.KIND 0. -/
  | groupcmdStop
  /-- GROUPCMD_RUN (R226). A group stopped by STOP continues, resuming any wait it was in. -/
  | groupcmdRun
  /-- SVCCMD_RETRY (R504). An SVCCMD answer with FAIL clear makes the waiting access walk again. -/
  | svccmdRetry
  /-- SVCCMD_FAIL (R504). An SVCCMD answer with FAIL set fails the waiting access. -/
  | svccmdFail
  /-- DEVICE_RING_RECORD_WRITE (R225). A record held while its device-written ring was full or disabled is written
  once there is room. -/
  | deviceRingRecordWrite
  /-- TCOMPL (R261). A hart completes a TRAP call, writing k0 and k1 and making the group ready, or the completion
  is refused. -/
  | tcompl
  /-- WEIGHT_SWITCH (R302). WHCMD makes a slot the CURRENT weight generation. -/
  | weightSwitch
  /-- WEIGHT_STORE_INSTALL (R296). WSCMD starts the check and installation of a staged image. -/
  | weightStoreInstall
  /-- WEIGHT_INSTALL_DONE (R296). An installation finishes writing and verifying every chunk, or fails. -/
  | weightInstallDone
  /-- HRATE_TARGET_WRITE (R292). A new TARGET starts a channel's rate switch and sets BUSY. -/
  | hrateTargetWrite
  /-- HRATE_SWITCH_DONE (R292). The rate switch stall ends, CURRENT takes TARGET and queued accesses proceed. -/
  | hrateSwitchDone
  /-- MUCAP_WRITE (R294). A new MUCAP cap is set for a die, and writes out of range are ignored. -/
  | mucapWrite
  /-- POWER_ON (R304). At power-on the boot ROM measures and verifies the firmware and starts it or enters recovery. -/
  | powerOn
  /-- POD_ELECTION (R297). Candidates elect the lowest-SERIAL reachable leader and form the chain. -/
  | podElection
  /-- CHUNK_RECEIVED (R297). A member receives a whole chunk, checks its digest and keeps or forwards it, or asks
  for it again. -/
  | chunkReceived
  /-- CHIP_ASSIGNMENT (R297). When every member holds its chunks, the leader assigns chip numbers and the modules
  write CHIPID and PODMASK. -/
  | chipAssignment
  /-- LEADER_CONTACT (R299). A packet between two leaders makes the higher-SERIAL one abdicate. -/
  | leaderContact
  /-- KEEPALIVE_SEND (R300). A leader sends a keep-alive down the chain every 2^16 link cycles. -/
  | keepaliveSend
  /-- UPSTREAM_SILENT (R300). A member that hears nothing for 2^20 link cycles starts a new election. -/
  | upstreamSilent
  /-- CORRECTED_ERROR (R306). A corrected soft error increments CECNT. -/
  | correctedError
  /-- UNCORRECTABLE_ERROR (R306). An uncorrectable soft error increments UECNT and poisons its unit. -/
  | uncorrectableError
  /-- SCRUB_PASS (R306). The home agents read every sector at least once every 24 hours, correcting or poisoning it. -/
  | scrubPass
  /-- CORE_FAILED (R307). A failed core is replaced by a spare, or retired with its groups lost. -/
  | coreFailed
  /-- L2_SLICE_FAILED (R308). A failed L2 slice is taken over by the spare, or its lines are poisoned. -/
  | l2SliceFailed
  /-- SPDM_MEASUREMENT_REQUEST (R305). The module answers an SPDM measurement request with the signed log and M. -/
  | spdmMeasurementRequest
  /-- HART_MEMORY_ACCESS (R257). A hart access to module memory below M mode is checked against the frame key table. -/
  | hartMemoryAccess
  /-- REGISTER_WRITE (R6). A write to a control register that has no behaviour of its own stores the value. -/
  | registerWrite
  /-- ACCESS_TAKES_EFFECT (R163). A local store, atomic or CAS access takes effect at its home slice, L1 or bank,
  and an atomic returns the old value to its destination. -/
  | accessTakesEffect
  /-- HEAP_DESCRIPTOR_LOCKED (R263). An ALLOC or FREE obtains its tumbler lock on the descriptor line, checks the
  link word and completes or stops the group. -/
  | heapDescriptorLocked
  /-- EPU_RESET_END (R140). A reset of a hung EPU ends, and the undecided lanes are run again from stage 0. -/
  | epuResetEnd
  /-- L2_SPARE_TAKEOVER_DONE (R308). The spare L2 slice completes its takeover, and accesses held in the replay
  queue for that slice are served. -/
  | l2SpareTakeoverDone
  /-- SPARE_CORE_DRAIN_DONE (R307). The failed core's state has been drained into the images and the spare, and its
  groups restart on the spare. -/
  | spareCoreDrainDone
  /-- MARKER_REPORT_ARRIVAL (R277). A target's marker report reaches the requesting chip and counts toward the
  completion of the waiting FENCER. -/
  | markerReportArrival
  /-- PORT_LINK_UP (R253). A root port's link comes up, which resets its NTB message registers and allows requests
  on the port again. -/
  | portLinkUp
  /-- DPC_RELEASE (R251). The supervisor releases a root port contained by DPC, and the port accepts requests again. -/
  | dpcRelease
  /-- POWER_LOSS (R296). The module loses power, so an installation in progress leaves STORE at 0 and all volatile
  state is lost. -/
  | powerLoss
  /-- KEEPALIVE_RECEIVED (R300). A chain member receives a keep-alive from its predecessor, relays it and restarts
  its silence count. -/
  | keepaliveReceived
  /-- HELD_CHUNK_REPORT (R298). A member's report of its held or verified chunks reaches the leader, which then
  sends only the missing chunks or assigns chip numbers. -/
  | heldChunkReport
  /-- CHUNK_REREQUEST (R297). A predecessor receives a request to send again a chunk that failed its digest, and
  resends it. -/
  | chunkRerequest
  /-- RECOVERY_IMAGE_ACCEPT (R304). A module in recovery accepts a new firmware image over the out-of-band
  management port. -/
  | recoveryImageAccept
  deriving DecidableEq, Repr

end Sys2Proof
end

