-- ==== Sys2Proof/WellFormed.lean ====
section
/-! DEFINITION. Well-formed instructions: the illegal-instruction conditions of spec 14 R316 that the word alone decides,
with those of the reference entries (15 to 18) and of 06 R128. Fields that must be zero have no place in `Instr`; the decoder checks them. -/

namespace Sys2Proof

/-- A lane register code naming v0 to v47 (04 R79). -/
def laneDest (c : BitVec 6) : Bool := decide (c.toNat < 48)

/-- A pair is named by its even register (04 R80). -/
def even {n : Nat} (c : BitVec n) : Bool := decide (c.toNat % 2 = 0)

/-- A quad is named by a multiple of 4. -/
def quad {n : Nat} (c : BitVec n) : Bool := decide (c.toNat % 4 = 0)

/-- Scope codes 6 and 7 are reserved (14 R316, 09 R194). -/
def scopeCode (c : BitVec 3) : Bool := decide (c.toNat < 6)

/-- The data register of a sized access: SZ 0 word, 1 doubleword, 2 quadword, 3 reserved (14 R311). -/
def sized (w : BitVec 2) (d : BitVec 6) : Bool :=
  laneDest d && (decide (w = 0) || (decide (w = 1) && even d) || (decide (w = 2) && quad d))

/-- The operand block and destination of a geometric instruction (06 R128); `n64` and `n32` are the block sizes. -/
def geometricBlock (d a im : BitVec 6) (x f : BitVec 1) (n64 n32 : Nat) : Bool :=
  let size := if f = 1 then n32 else n64
  laneDest d && laneDest a && (decide (f = 1) || even a) && decide (a.toNat + size ≤ 48) &&
    !(decide (a.toNat ≤ d.toNat) && decide (d.toNat < a.toNat + size)) &&
    (decide (x = 1) || decide (im = 0))

/-- The special registers listed in 04 R93; LANE needs a lane destination (04 R94). -/
def readableSpr (r : BitVec 11) (k : BitVec 1) : Bool :=
  (decide (r = 0x000) && decide (k = 1)) ||
  [0x001, 0x002, 0x003, 0x004, 0x005, 0x006, 0x007, 0x010, 0x011, 0x012, 0x013, 0x014, 0x015,
   0x018, 0x019, 0x01A, 0x01B, 0x01C, 0x020, 0x021, 0x022, 0x023, 0x028, 0x029, 0x030, 0x031, 0x032,
   0x040, 0x050, 0x060].contains r.toNat

/-- The special registers that SWR may write (04 R93). -/
def writableSpr (r : BitVec 11) : Bool :=
  [0x010, 0x011, 0x012, 0x013, 0x018, 0x01C, 0x028].contains r.toNat

/-- The conditions on an instruction's own fields. Device steps carry none.
DEDUCED: log 19. -/
def Instr.wellFormed : Instr → Bool
  | .iadd d _ _ _ _ => laneDest d
  | .isub d _ _ _ _ => laneDest d
  | .iaddi d _ _ _ => laneDest d
  | .imul d _ _ _ _ => laneDest d
  | .imulh d _ _ _ _ => laneDest d
  | .imulhU d _ _ _ _ => laneDest d
  | .imad d _ _ _ _ => laneDest d
  | .imin d _ _ _ _ => laneDest d
  | .iminU d _ _ _ _ => laneDest d
  | .imax d _ _ _ _ => laneDest d
  | .imaxU d _ _ _ _ => laneDest d
  | .iabs d _ _ _ => laneDest d
  | .add64 d a b _ _ => laneDest d && even d && even a && even b
  | .lea d a _ _ _ => laneDest d && even d && even a
  | .leaD d a _ _ _ => laneDest d && even d && even a
  | .and d _ _ _ _ => laneDest d
  | .or d _ _ _ _ => laneDest d
  | .xor d _ _ _ _ => laneDest d
  | .not d _ _ _ => laneDest d
  | .andi d _ _ _ => laneDest d
  | .ori d _ _ _ => laneDest d
  | .xori d _ _ _ => laneDest d
  | .iaddSat d _ _ _ _ => laneDest d
  | .shl d _ _ _ _ => laneDest d
  | .shr d _ _ _ _ => laneDest d
  | .sar d _ _ _ _ => laneDest d
  | .shli d _ _ _ => laneDest d
  | .shri d _ _ _ => laneDest d
  | .sari d _ _ _ => laneDest d
  | .popc d _ _ _ => laneDest d
  | .clz d _ _ _ => laneDest d
  | .brev d _ _ _ => laneDest d
  | .bfe d _ _ _ _ => laneDest d
  | .bfeS d _ _ _ _ => laneDest d
  | .bfi d _ _ _ _ => laneDest d
  | .itest _ _ _ _ _ _ => true
  | .sel d _ _ _ _ => laneDest d
  | .mov d _ _ _ => laneDest d
  | .movi d _ _ => laneDest d
  | .slane d _ _ m _ => laneDest d && decide (m.toNat < 4)
  | .isubSat d _ _ _ _ => laneDest d
  | .idot4 d _ _ _ _ => laneDest d
  | .idot8 d _ _ _ _ => laneDest d
  | .pswz d _ _ _ _ => laneDest d
  | .itestD _ _ a b _ _ => even a && even b
  | .fadd d _ _ _ _ => laneDest d
  | .fsub d _ _ _ _ => laneDest d
  | .fmul d _ _ _ _ => laneDest d
  | .fma d _ _ _ _ => laneDest d
  | .fms d _ _ _ _ => laneDest d
  | .fnma d _ _ _ _ => laneDest d
  | .fmin d _ _ _ _ => laneDest d
  | .fmax d _ _ _ _ => laneDest d
  | .fabs d _ _ _ => laneDest d
  | .fneg d _ _ _ => laneDest d
  | .ftest _ _ _ _ _ _ => true
  | .fclass d _ _ _ => laneDest d
  | .frcp d _ _ _ => laneDest d
  | .frsq d _ _ _ => laneDest d
  | .fsqrt d _ _ _ => laneDest d
  | .fexp2 d _ _ _ => laneDest d
  | .flog2 d _ _ _ => laneDest d
  | .fsin d _ _ _ => laneDest d
  | .fcos d _ _ _ => laneDest d
  | .frnd d _ _ r _ => laneDest d && decide (r ≠ 5 ∧ r ≠ 6)
  | .fscl d _ _ _ _ => laneDest d
  | .fcvt d _ _ r _ => laneDest d && decide (r ≠ 5 ∧ r ≠ 6)
  | .icvt d _ _ r _ => laneDest d && decide (r ≠ 5 ∧ r ≠ 6)
  | .tag d a f _ => laneDest d && (decide (f ≠ 4) || (even d && even a))
  | .fdot2 d _ _ _ _ => laneDest d
  | .fdot4 d _ _ _ _ => laneDest d
  | .orient2 d a im x _ f => geometricBlock d a im x f 12 6
  | .orient3 d a im x _ f => geometricBlock d a im x f 24 12
  | .incirc d a im x _ f => geometricBlock d a im x f 16 8
  | .insph d a im x _ f => geometricBlock d a im x f 30 15
  | .segx d a im x _ f => geometricBlock d a im x f 16 8
  | .ldB d a _ _ => laneDest d && even a
  | .ldBs d a _ _ => laneDest d && even a
  | .ldH d a _ _ => laneDest d && even a
  | .ldHs d a _ _ => laneDest d && even a
  | .ldW d a _ _ => laneDest d && even a
  | .ldD d a _ _ => laneDest d && even d && even a
  | .ldQ d a _ _ => laneDest d && quad d && even a
  | .ldNt d a _ _ => laneDest d && even a
  | .stB d a _ _ => laneDest d && even a
  | .stH d a _ _ => laneDest d && even a
  | .stW d a _ _ => laneDest d && even a
  | .stD d a _ _ => laneDest d && even d && even a
  | .stQ d a _ _ => laneDest d && quad d && even a
  | .stOf d a w _ => sized w d && even a
  | .lda d a c w _ => sized w d && even a && scopeCode c
  | .stl d a c w _ => sized w d && even a && scopeCode c
  | .atomW d a _ c _ => laneDest d && even a && scopeCode c
  | .atomD d a b c _ => laneDest d && even d && even a && even b && scopeCode c
  | .casW d a _ c => laneDest d && even a && scopeCode c
  | .casD d a b c => laneDest d && even d && even a && even b && scopeCode c
  | .pref _ a _ _ => even a
  | .nop _ => true
  | .uadd _ _ _ _ _ => true
  | .usub _ _ _ _ _ => true
  | .uaddi _ _ _ _ => true
  | .umul _ _ _ _ _ => true
  | .umulh _ _ _ _ _ => true
  | .umulhU _ _ _ _ _ => true
  | .uadd64 d a b _ _ => even d && even a && even b
  | .uand _ _ _ _ _ => true
  | .uor _ _ _ _ _ => true
  | .uxor _ _ _ _ _ => true
  | .uandi _ _ _ _ => true
  | .uori _ _ _ _ => true
  | .ushl _ _ _ _ _ => true
  | .ushr _ _ _ _ _ => true
  | .usar _ _ _ _ _ => true
  | .ushli _ _ _ _ => true
  | .ushri _ _ _ _ => true
  | .umin _ _ _ _ _ => true
  | .uminU _ _ _ _ _ => true
  | .umax _ _ _ _ _ => true
  | .umaxU _ _ _ _ _ => true
  | .usetp d _ _ _ _ _ => decide (d.toNat < 4)
  | .usel _ _ _ m _ _ => decide (m ≠ 3)
  | .umov _ _ _ _ => true
  | .umovi _ _ _ => true
  | .ului _ _ _ => true
  | .upopc _ _ _ _ => true
  | .uclz _ _ _ _ => true
  | .ubfe _ _ _ _ _ _ => true
  | .ubfi _ _ _ _ => true
  | .umad _ _ _ _ => true
  | .uldW _ a _ _ => even a
  | .uldD d a _ _ => even d && even a
  | .ustW _ a _ _ => even a
  | .ustD d a _ _ => even d && even a
  | .rfal _ v _ m _ => laneDest v && decide (m.toNat < 2)
  | .rdl _ v _ _ => laneDest v
  | .vlane _ v _ m _ => decide (m ≠ 3) && (if m = 2 then laneDest v else decide (v = 0))
  | .uldH _ a _ _ => even a
  | .ustH _ a _ _ => even a
  | .uldB _ a _ _ => even a
  | .ustB _ a _ _ => even a
  | .bra _ _ => true
  | .brp _ _ _ => true
  | .call f _ => decide (f.toNat < 6)
  | .ret _ _ => true
  | .grow f => decide (f.toNat < 6)
  | .shrink _ _ => true
  | .ovld _ _ _ => true
  | .ovcall _ _ => true
  | .ovret _ _ => true
  | .exit _ _ => true
  | .trap _ _ => true
  | .bkpt _ _ => true
  | .yield _ _ => true
  | .brx _ _ _ => true
  | .callx _ f _ _ => decide (f.toNat < 6)
  | .srd k d r _ => readableSpr r k && (if k = 0 then decide (d.toNat < 32) else laneDest d)
  | .swr _ r _ => writableSpr r
  | .tagr _ v m _ => decide (m.toNat < 2) && (if m = 0 then laneDest v else decide (v.toNat < 8))
  | .barInit _ a _ _ _ => even a
  | .barArv _ a c _ _ => even a && scopeCode c
  | .barWait _ a c _ _ => even a && scopeCode c
  | .barArw _ a c _ _ => even a && scopeCode c
  | .barTest _ a _ c _ _ => even a && scopeCode c
  | .racq _ _ _ _ => true
  | .rpub _ _ _ _ _ => true
  | .rtake _ _ _ _ => true
  | .rrel _ _ _ _ => true
  | .waitc _ _ _ => true
  | .fence c _ _ => scopeCode c
  | .fencer _ _ => true
  | .mcas _ a _ _ => even a
  | .atomu _ a _ _ sc => even a && scopeCode sc
  | .casu _ a _ _ sc => even a && scopeCode sc
  | .copy a b _ _ => even a && even b
  | .copy2d a b c _ => even a && even b && quad c
  | .gather a b c _ => even a && even b && quad c
  | .scatter a b c _ => even a && even b && quad c
  | .fill a _ _ => even a
  | .copyr _ b _ _ => even b
  | .mma _ a b y _ j => quad a && quad b && (decide (j = 1) || decide (y = 0))
  | .hadt _ _ _ n => decide (n ≠ 3)
  | .qtile a b y m _ _ => quad b && (if m = 1 then quad a && decide (y = 0) else decide (a = 0))
  | .zld _ a _ => quad a
  | .zst a _ => quad a
  | .zsta a _ => quad a
  | .zzero _ _ => true
  | .zcvt _ _ _ c => decide (c.toNat < 2)
  | .zmov _ _ _ => true
  | .tpref a => quad a
  | .launch _ a _ _ => even a
  | .cancel _ a l _ _ => even a && decide (l.toNat < 5)
  | .ccwait _ a m _ _ => even a && decide (m.toNat < 2)
  | .alloc d a _ _ _ => even d && even a
  | .free _ a b _ _ => even a && even b
  | .dbell _ _ _ _ _ => true
  | .cctl a _ m _ _ => even a && decide (m.toNat < 3)
  | .submissionEntryRead => true
  | .pendingLaunchAdmit => true
  | .heldLaunchRecheck => true
  | .placementOpportunity => true
  | .overlayPlacementLoadDone => true
  | .issueCycle => true
  | .swapidleExpiry => true
  | .groupResume => true
  | .registerLineLoad => true
  | .muIdleEntry => true
  | .muLeaveIdleStart => true
  | .muLeaveIdleDone => true
  | .activityForecastWrite => true
  | .groupEnd => true
  | .unitRetire => true
  | .checkPhaseDone => true
  | .loadDataReturn => true
  | .copyEngineOpComplete => true
  | .copyrSlotAcquire => true
  | .microTileComplete => true
  | .matrixOpComplete => true
  | .epuLaneDecided => true
  | .geometricComplete => true
  | .epuReset => true
  | .muHangReset => true
  | .muResetEnd => true
  | .mcasLocksComplete => true
  | .waitforWalk => true
  | .remoteRequest => true
  | .remoteReply => true
  | .remoteStoreAck => true
  | .faultTicketResponse => true
  | .ticketTableEntry => true
  | .replayNotice => true
  | .tktdone => true
  | .markerReceived => true
  | .flaggedStorePerform => true
  | .markerReport => true
  | .esctimerExpiry => true
  | .planeDead => true
  | .planemapWrite => true
  | .planemapChangeApply => true
  | .podmaskWrite => true
  | .msiArrival => true
  | .arrivalQueueApply => true
  | .notifyArrival => true
  | .arrcmdBind => true
  | .arrcmdUnbind => true
  | .ntbMailboxWrite => true
  | .ntbInboundAccess => true
  | .doorbellMark => true
  | .tailWriteFailed => true
  | .dqEnable => true
  | .atsTranslationRequest => true
  | .endpointMemoryRequest => true
  | .pageRequest => true
  | .prgresp => true
  | .atsInvalidateCompletion => true
  | .atsInvalidateTimeout => true
  | .dpcContainment => true
  | .invalidatePage => true
  | .invalidateRange => true
  | .invalidateJob => true
  | .invalidateAll => true
  | .invalidationComplete => true
  | .migrationStart => true
  | .migrationDrainDone => true
  | .migrationCopyDone => true
  | .groupcmdReissue => true
  | .groupcmdSkip => true
  | .groupcmdLose => true
  | .groupcmdReplay => true
  | .groupcmdStop => true
  | .groupcmdRun => true
  | .svccmdRetry => true
  | .svccmdFail => true
  | .deviceRingRecordWrite => true
  | .tcompl => true
  | .weightSwitch => true
  | .weightStoreInstall => true
  | .weightInstallDone => true
  | .hrateTargetWrite => true
  | .hrateSwitchDone => true
  | .mucapWrite => true
  | .powerOn => true
  | .podElection => true
  | .chunkReceived => true
  | .chipAssignment => true
  | .leaderContact => true
  | .keepaliveSend => true
  | .upstreamSilent => true
  | .correctedError => true
  | .uncorrectableError => true
  | .scrubPass => true
  | .coreFailed => true
  | .l2SliceFailed => true
  | .spdmMeasurementRequest => true
  | .hartMemoryAccess => true
  | .registerWrite => true
  | .accessTakesEffect => true
  | .heapDescriptorLocked => true
  | .epuResetEnd => true
  | .l2SpareTakeoverDone => true
  | .spareCoreDrainDone => true
  | .markerReportArrival => true
  | .portLinkUp => true
  | .dpcRelease => true
  | .powerLoss => true
  | .keepaliveReceived => true
  | .heldChunkReport => true
  | .chunkRerequest => true
  | .recoveryImageAccept => true

/-- A device step, which has no instruction word. -/
def Instr.isStep : Instr → Bool
  | .iadd .. => false
  | .isub .. => false
  | .iaddi .. => false
  | .imul .. => false
  | .imulh .. => false
  | .imulhU .. => false
  | .imad .. => false
  | .imin .. => false
  | .iminU .. => false
  | .imax .. => false
  | .imaxU .. => false
  | .iabs .. => false
  | .add64 .. => false
  | .lea .. => false
  | .leaD .. => false
  | .and .. => false
  | .or .. => false
  | .xor .. => false
  | .not .. => false
  | .andi .. => false
  | .ori .. => false
  | .xori .. => false
  | .iaddSat .. => false
  | .shl .. => false
  | .shr .. => false
  | .sar .. => false
  | .shli .. => false
  | .shri .. => false
  | .sari .. => false
  | .popc .. => false
  | .clz .. => false
  | .brev .. => false
  | .bfe .. => false
  | .bfeS .. => false
  | .bfi .. => false
  | .itest .. => false
  | .sel .. => false
  | .mov .. => false
  | .movi .. => false
  | .slane .. => false
  | .isubSat .. => false
  | .idot4 .. => false
  | .idot8 .. => false
  | .pswz .. => false
  | .itestD .. => false
  | .fadd .. => false
  | .fsub .. => false
  | .fmul .. => false
  | .fma .. => false
  | .fms .. => false
  | .fnma .. => false
  | .fmin .. => false
  | .fmax .. => false
  | .fabs .. => false
  | .fneg .. => false
  | .ftest .. => false
  | .fclass .. => false
  | .frcp .. => false
  | .frsq .. => false
  | .fsqrt .. => false
  | .fexp2 .. => false
  | .flog2 .. => false
  | .fsin .. => false
  | .fcos .. => false
  | .frnd .. => false
  | .fscl .. => false
  | .fcvt .. => false
  | .icvt .. => false
  | .tag .. => false
  | .fdot2 .. => false
  | .fdot4 .. => false
  | .orient2 .. => false
  | .orient3 .. => false
  | .incirc .. => false
  | .insph .. => false
  | .segx .. => false
  | .ldB .. => false
  | .ldBs .. => false
  | .ldH .. => false
  | .ldHs .. => false
  | .ldW .. => false
  | .ldD .. => false
  | .ldQ .. => false
  | .ldNt .. => false
  | .stB .. => false
  | .stH .. => false
  | .stW .. => false
  | .stD .. => false
  | .stQ .. => false
  | .stOf .. => false
  | .lda .. => false
  | .stl .. => false
  | .atomW .. => false
  | .atomD .. => false
  | .casW .. => false
  | .casD .. => false
  | .pref .. => false
  | .nop .. => false
  | .uadd .. => false
  | .usub .. => false
  | .uaddi .. => false
  | .umul .. => false
  | .umulh .. => false
  | .umulhU .. => false
  | .uadd64 .. => false
  | .uand .. => false
  | .uor .. => false
  | .uxor .. => false
  | .uandi .. => false
  | .uori .. => false
  | .ushl .. => false
  | .ushr .. => false
  | .usar .. => false
  | .ushli .. => false
  | .ushri .. => false
  | .umin .. => false
  | .uminU .. => false
  | .umax .. => false
  | .umaxU .. => false
  | .usetp .. => false
  | .usel .. => false
  | .umov .. => false
  | .umovi .. => false
  | .ului .. => false
  | .upopc .. => false
  | .uclz .. => false
  | .ubfe .. => false
  | .ubfi .. => false
  | .umad .. => false
  | .uldW .. => false
  | .uldD .. => false
  | .ustW .. => false
  | .ustD .. => false
  | .rfal .. => false
  | .rdl .. => false
  | .vlane .. => false
  | .uldH .. => false
  | .ustH .. => false
  | .uldB .. => false
  | .ustB .. => false
  | .bra .. => false
  | .brp .. => false
  | .call .. => false
  | .ret .. => false
  | .grow .. => false
  | .shrink .. => false
  | .ovld .. => false
  | .ovcall .. => false
  | .ovret .. => false
  | .exit .. => false
  | .trap .. => false
  | .bkpt .. => false
  | .yield .. => false
  | .brx .. => false
  | .callx .. => false
  | .srd .. => false
  | .swr .. => false
  | .tagr .. => false
  | .barInit .. => false
  | .barArv .. => false
  | .barWait .. => false
  | .barArw .. => false
  | .barTest .. => false
  | .racq .. => false
  | .rpub .. => false
  | .rtake .. => false
  | .rrel .. => false
  | .waitc .. => false
  | .fence .. => false
  | .fencer .. => false
  | .mcas .. => false
  | .atomu .. => false
  | .casu .. => false
  | .copy .. => false
  | .copy2d .. => false
  | .gather .. => false
  | .scatter .. => false
  | .fill .. => false
  | .copyr .. => false
  | .mma .. => false
  | .hadt .. => false
  | .qtile .. => false
  | .zld .. => false
  | .zst .. => false
  | .zsta .. => false
  | .zzero .. => false
  | .zcvt .. => false
  | .zmov .. => false
  | .tpref .. => false
  | .launch .. => false
  | .cancel .. => false
  | .ccwait .. => false
  | .alloc .. => false
  | .free .. => false
  | .dbell .. => false
  | .cctl .. => false
  | .submissionEntryRead => true
  | .pendingLaunchAdmit => true
  | .heldLaunchRecheck => true
  | .placementOpportunity => true
  | .overlayPlacementLoadDone => true
  | .issueCycle => true
  | .swapidleExpiry => true
  | .groupResume => true
  | .registerLineLoad => true
  | .muIdleEntry => true
  | .muLeaveIdleStart => true
  | .muLeaveIdleDone => true
  | .activityForecastWrite => true
  | .groupEnd => true
  | .unitRetire => true
  | .checkPhaseDone => true
  | .loadDataReturn => true
  | .copyEngineOpComplete => true
  | .copyrSlotAcquire => true
  | .microTileComplete => true
  | .matrixOpComplete => true
  | .epuLaneDecided => true
  | .geometricComplete => true
  | .epuReset => true
  | .muHangReset => true
  | .muResetEnd => true
  | .mcasLocksComplete => true
  | .waitforWalk => true
  | .remoteRequest => true
  | .remoteReply => true
  | .remoteStoreAck => true
  | .faultTicketResponse => true
  | .ticketTableEntry => true
  | .replayNotice => true
  | .tktdone => true
  | .markerReceived => true
  | .flaggedStorePerform => true
  | .markerReport => true
  | .esctimerExpiry => true
  | .planeDead => true
  | .planemapWrite => true
  | .planemapChangeApply => true
  | .podmaskWrite => true
  | .msiArrival => true
  | .arrivalQueueApply => true
  | .notifyArrival => true
  | .arrcmdBind => true
  | .arrcmdUnbind => true
  | .ntbMailboxWrite => true
  | .ntbInboundAccess => true
  | .doorbellMark => true
  | .tailWriteFailed => true
  | .dqEnable => true
  | .atsTranslationRequest => true
  | .endpointMemoryRequest => true
  | .pageRequest => true
  | .prgresp => true
  | .atsInvalidateCompletion => true
  | .atsInvalidateTimeout => true
  | .dpcContainment => true
  | .invalidatePage => true
  | .invalidateRange => true
  | .invalidateJob => true
  | .invalidateAll => true
  | .invalidationComplete => true
  | .migrationStart => true
  | .migrationDrainDone => true
  | .migrationCopyDone => true
  | .groupcmdReissue => true
  | .groupcmdSkip => true
  | .groupcmdLose => true
  | .groupcmdReplay => true
  | .groupcmdStop => true
  | .groupcmdRun => true
  | .svccmdRetry => true
  | .svccmdFail => true
  | .deviceRingRecordWrite => true
  | .tcompl => true
  | .weightSwitch => true
  | .weightStoreInstall => true
  | .weightInstallDone => true
  | .hrateTargetWrite => true
  | .hrateSwitchDone => true
  | .mucapWrite => true
  | .powerOn => true
  | .podElection => true
  | .chunkReceived => true
  | .chipAssignment => true
  | .leaderContact => true
  | .keepaliveSend => true
  | .upstreamSilent => true
  | .correctedError => true
  | .uncorrectableError => true
  | .scrubPass => true
  | .coreFailed => true
  | .l2SliceFailed => true
  | .spdmMeasurementRequest => true
  | .hartMemoryAccess => true
  | .registerWrite => true
  | .accessTakesEffect => true
  | .heapDescriptorLocked => true
  | .epuResetEnd => true
  | .l2SpareTakeoverDone => true
  | .spareCoreDrainDone => true
  | .markerReportArrival => true
  | .portLinkUp => true
  | .dpcRelease => true
  | .powerLoss => true
  | .keepaliveReceived => true
  | .heldChunkReport => true
  | .chunkRerequest => true
  | .recoveryImageAccept => true

end Sys2Proof
end

