-- ==== Sys2Proof/Decode.lean ====
section
/-! DEFINITION. Decoding of instruction words (spec 14 R309 to R316, R321, R322) and the encoder beside it. A word is a
number below 2^32; bits [31:24] hold the set bit and the opcode. -/

namespace Sys2Proof

/-- Why a word is no instruction (14 R316). Each stops the group with an illegal-instruction trap; safe. -/
inductive Reject where
  /-- Fewer than four bytes. -/
  | truncated
  /-- The opcode is not assigned in its set. -/
  | unassigned
  /-- A field that must have a fixed value has another. -/
  | reservedField
  /-- A field holds a code that the instruction refuses. -/
  | illFormed
  deriving DecidableEq, Repr

/-- The field of `n` bits whose lowest bit is bit `lo`. -/
def fld (w lo n : Nat) : BitVec n := BitVec.ofNat n (w / 2 ^ lo)

/-- Whether the field of `n` bits at bit `lo` holds the value `v`. -/
def holds (w lo n v : Nat) : Bool := decide (w / 2 ^ lo % 2 ^ n = v)

/-- An instruction, unless a must-be-zero field is misused. -/
def guarded (ok : Bool) (i : Instr) : Except Reject Instr :=
  if ok then .ok i else .error .reservedField

/-- The five modes of BAR, by MOD (08 R170). -/
def decodeBar (w : Nat) : Except Reject Instr :=
  match w / 2 ^ 5 % 16 with
  | 0 => guarded (true) (.barInit (fld w 19 5) (fld w 14 5) (fld w 9 5) (fld w 3 2) (fld w 0 3))
  | 1 => guarded (holds w 12 2 0) (.barArv (fld w 19 5) (fld w 14 5) (fld w 9 3) (fld w 3 2) (fld w 0 3))
  | 2 => guarded (holds w 12 2 0) (.barWait (fld w 19 5) (fld w 14 5) (fld w 9 3) (fld w 3 2) (fld w 0 3))
  | 3 => guarded (holds w 12 2 0) (.barArw (fld w 19 5) (fld w 14 5) (fld w 9 3) (fld w 3 2) (fld w 0 3))
  | 4 => guarded (holds w 13 1 0) (.barTest (fld w 19 5) (fld w 14 5) (fld w 12 1) (fld w 9 3) (fld w 3 2) (fld w 0 3))
  | _ => .error .illFormed

/-- The instruction that a word's opcode and fields name, before the checks of its operand codes. -/
def decodeFields (w : Nat) : Except Reject Instr :=
  match w / 2 ^ 24 with
  | 0x01 => .ok (.iadd (fld w 18 6) (fld w 12 6) (fld w 6 6) (fld w 3 3) (fld w 0 3))
  | 0x02 => .ok (.isub (fld w 18 6) (fld w 12 6) (fld w 6 6) (fld w 3 3) (fld w 0 3))
  | 0x03 => .ok (.iaddi (fld w 18 6) (fld w 12 6) (fld w 3 9) (fld w 0 3))
  | 0x04 => .ok (.imul (fld w 18 6) (fld w 12 6) (fld w 6 6) (fld w 3 3) (fld w 0 3))
  | 0x05 => .ok (.imulh (fld w 18 6) (fld w 12 6) (fld w 6 6) (fld w 3 3) (fld w 0 3))
  | 0x06 => .ok (.imulhU (fld w 18 6) (fld w 12 6) (fld w 6 6) (fld w 3 3) (fld w 0 3))
  | 0x07 => .ok (.imad (fld w 18 6) (fld w 12 6) (fld w 6 6) (fld w 3 3) (fld w 0 3))
  | 0x08 => .ok (.imin (fld w 18 6) (fld w 12 6) (fld w 6 6) (fld w 3 3) (fld w 0 3))
  | 0x09 => .ok (.iminU (fld w 18 6) (fld w 12 6) (fld w 6 6) (fld w 3 3) (fld w 0 3))
  | 0x0A => .ok (.imax (fld w 18 6) (fld w 12 6) (fld w 6 6) (fld w 3 3) (fld w 0 3))
  | 0x0B => .ok (.imaxU (fld w 18 6) (fld w 12 6) (fld w 6 6) (fld w 3 3) (fld w 0 3))
  | 0x0C => guarded (holds w 6 6 0) (.iabs (fld w 18 6) (fld w 12 6) (fld w 3 3) (fld w 0 3))
  | 0x0D => .ok (.add64 (fld w 18 6) (fld w 12 6) (fld w 6 6) (fld w 3 3) (fld w 0 3))
  | 0x0E => .ok (.lea (fld w 18 6) (fld w 12 6) (fld w 6 6) (fld w 3 3) (fld w 0 3))
  | 0x0F => .ok (.leaD (fld w 18 6) (fld w 12 6) (fld w 6 6) (fld w 3 3) (fld w 0 3))
  | 0x10 => .ok (.and (fld w 18 6) (fld w 12 6) (fld w 6 6) (fld w 3 3) (fld w 0 3))
  | 0x11 => .ok (.or (fld w 18 6) (fld w 12 6) (fld w 6 6) (fld w 3 3) (fld w 0 3))
  | 0x12 => .ok (.xor (fld w 18 6) (fld w 12 6) (fld w 6 6) (fld w 3 3) (fld w 0 3))
  | 0x13 => guarded (holds w 6 6 0) (.not (fld w 18 6) (fld w 12 6) (fld w 3 3) (fld w 0 3))
  | 0x14 => .ok (.andi (fld w 18 6) (fld w 12 6) (fld w 3 9) (fld w 0 3))
  | 0x15 => .ok (.ori (fld w 18 6) (fld w 12 6) (fld w 3 9) (fld w 0 3))
  | 0x16 => .ok (.xori (fld w 18 6) (fld w 12 6) (fld w 3 9) (fld w 0 3))
  | 0x17 => .ok (.iaddSat (fld w 18 6) (fld w 12 6) (fld w 6 6) (fld w 3 3) (fld w 0 3))
  | 0x18 => .ok (.shl (fld w 18 6) (fld w 12 6) (fld w 6 6) (fld w 3 3) (fld w 0 3))
  | 0x19 => .ok (.shr (fld w 18 6) (fld w 12 6) (fld w 6 6) (fld w 3 3) (fld w 0 3))
  | 0x1A => .ok (.sar (fld w 18 6) (fld w 12 6) (fld w 6 6) (fld w 3 3) (fld w 0 3))
  | 0x1B => guarded (holds w 8 4 0) (.shli (fld w 18 6) (fld w 12 6) (fld w 3 5) (fld w 0 3))
  | 0x1C => guarded (holds w 8 4 0) (.shri (fld w 18 6) (fld w 12 6) (fld w 3 5) (fld w 0 3))
  | 0x1D => guarded (holds w 8 4 0) (.sari (fld w 18 6) (fld w 12 6) (fld w 3 5) (fld w 0 3))
  | 0x1E => guarded (holds w 6 6 0) (.popc (fld w 18 6) (fld w 12 6) (fld w 3 3) (fld w 0 3))
  | 0x1F => guarded (holds w 6 6 0) (.clz (fld w 18 6) (fld w 12 6) (fld w 3 3) (fld w 0 3))
  | 0x20 => guarded (holds w 6 6 0) (.brev (fld w 18 6) (fld w 12 6) (fld w 3 3) (fld w 0 3))
  | 0x21 => .ok (.bfe (fld w 18 6) (fld w 12 6) (fld w 6 6) (fld w 3 3) (fld w 0 3))
  | 0x22 => .ok (.bfeS (fld w 18 6) (fld w 12 6) (fld w 6 6) (fld w 3 3) (fld w 0 3))
  | 0x23 => .ok (.bfi (fld w 18 6) (fld w 12 6) (fld w 6 6) (fld w 3 3) (fld w 0 3))
  | 0x24 => .ok (.itest (fld w 21 3) (fld w 18 3) (fld w 12 6) (fld w 6 6) (fld w 3 3) (fld w 0 3))
  | 0x25 => .ok (.sel (fld w 18 6) (fld w 12 6) (fld w 6 6) (fld w 3 3) (fld w 0 3))
  | 0x26 => guarded (holds w 6 6 0) (.mov (fld w 18 6) (fld w 12 6) (fld w 3 3) (fld w 0 3))
  | 0x27 => .ok (.movi (fld w 18 6) (fld w 3 15) (fld w 0 3))
  | 0x28 => .ok (.slane (fld w 18 6) (fld w 12 6) (fld w 6 6) (fld w 3 3) (fld w 0 3))
  | 0x29 => .ok (.isubSat (fld w 18 6) (fld w 12 6) (fld w 6 6) (fld w 3 3) (fld w 0 3))
  | 0x2A => .ok (.idot4 (fld w 18 6) (fld w 12 6) (fld w 6 6) (fld w 3 3) (fld w 0 3))
  | 0x2B => .ok (.idot8 (fld w 18 6) (fld w 12 6) (fld w 6 6) (fld w 3 3) (fld w 0 3))
  | 0x2C => .ok (.pswz (fld w 18 6) (fld w 12 6) (fld w 6 6) (fld w 3 3) (fld w 0 3))
  | 0x2D => .ok (.itestD (fld w 21 3) (fld w 18 3) (fld w 12 6) (fld w 6 6) (fld w 3 3) (fld w 0 3))
  | 0x30 => .ok (.fadd (fld w 18 6) (fld w 12 6) (fld w 6 6) (fld w 3 3) (fld w 0 3))
  | 0x31 => .ok (.fsub (fld w 18 6) (fld w 12 6) (fld w 6 6) (fld w 3 3) (fld w 0 3))
  | 0x32 => .ok (.fmul (fld w 18 6) (fld w 12 6) (fld w 6 6) (fld w 3 3) (fld w 0 3))
  | 0x33 => .ok (.fma (fld w 18 6) (fld w 12 6) (fld w 6 6) (fld w 3 3) (fld w 0 3))
  | 0x34 => .ok (.fms (fld w 18 6) (fld w 12 6) (fld w 6 6) (fld w 3 3) (fld w 0 3))
  | 0x35 => .ok (.fnma (fld w 18 6) (fld w 12 6) (fld w 6 6) (fld w 3 3) (fld w 0 3))
  | 0x36 => .ok (.fmin (fld w 18 6) (fld w 12 6) (fld w 6 6) (fld w 3 3) (fld w 0 3))
  | 0x37 => .ok (.fmax (fld w 18 6) (fld w 12 6) (fld w 6 6) (fld w 3 3) (fld w 0 3))
  | 0x38 => guarded (holds w 6 6 0) (.fabs (fld w 18 6) (fld w 12 6) (fld w 3 3) (fld w 0 3))
  | 0x39 => guarded (holds w 6 6 0) (.fneg (fld w 18 6) (fld w 12 6) (fld w 3 3) (fld w 0 3))
  | 0x3A => .ok (.ftest (fld w 21 3) (fld w 18 3) (fld w 12 6) (fld w 6 6) (fld w 3 3) (fld w 0 3))
  | 0x3B => guarded (holds w 6 6 0) (.fclass (fld w 18 6) (fld w 12 6) (fld w 3 3) (fld w 0 3))
  | 0x3C => guarded (holds w 6 6 0) (.frcp (fld w 18 6) (fld w 12 6) (fld w 3 3) (fld w 0 3))
  | 0x3D => guarded (holds w 6 6 0) (.frsq (fld w 18 6) (fld w 12 6) (fld w 3 3) (fld w 0 3))
  | 0x3E => guarded (holds w 6 6 0) (.fsqrt (fld w 18 6) (fld w 12 6) (fld w 3 3) (fld w 0 3))
  | 0x3F => guarded (holds w 6 6 0) (.fexp2 (fld w 18 6) (fld w 12 6) (fld w 3 3) (fld w 0 3))
  | 0x40 => guarded (holds w 6 6 0) (.flog2 (fld w 18 6) (fld w 12 6) (fld w 3 3) (fld w 0 3))
  | 0x41 => guarded (holds w 6 6 0) (.fsin (fld w 18 6) (fld w 12 6) (fld w 3 3) (fld w 0 3))
  | 0x42 => guarded (holds w 6 6 0) (.fcos (fld w 18 6) (fld w 12 6) (fld w 3 3) (fld w 0 3))
  | 0x43 => guarded (holds w 3 1 0) (.frnd (fld w 18 6) (fld w 12 6) (fld w 7 5) (fld w 4 3) (fld w 0 3))
  | 0x44 => .ok (.fscl (fld w 18 6) (fld w 12 6) (fld w 6 6) (fld w 3 3) (fld w 0 3))
  | 0x45 => guarded (holds w 3 1 0) (.fcvt (fld w 18 6) (fld w 12 6) (fld w 7 5) (fld w 4 3) (fld w 0 3))
  | 0x46 => guarded (holds w 3 1 0) (.icvt (fld w 18 6) (fld w 12 6) (fld w 7 5) (fld w 4 3) (fld w 0 3))
  | 0x47 => guarded (holds w 3 4 0) (.tag (fld w 18 6) (fld w 12 6) (fld w 7 5) (fld w 0 3))
  | 0x48 => .ok (.fdot2 (fld w 18 6) (fld w 12 6) (fld w 6 6) (fld w 3 3) (fld w 0 3))
  | 0x49 => .ok (.fdot4 (fld w 18 6) (fld w 12 6) (fld w 6 6) (fld w 3 3) (fld w 0 3))
  | 0x50 => guarded (holds w 0 3 0) (.orient2 (fld w 18 6) (fld w 12 6) (fld w 6 6) (fld w 5 1) (fld w 4 1) (fld w 3 1))
  | 0x51 => guarded (holds w 0 3 0) (.orient3 (fld w 18 6) (fld w 12 6) (fld w 6 6) (fld w 5 1) (fld w 4 1) (fld w 3 1))
  | 0x52 => guarded (holds w 0 3 0) (.incirc (fld w 18 6) (fld w 12 6) (fld w 6 6) (fld w 5 1) (fld w 4 1) (fld w 3 1))
  | 0x53 => guarded (holds w 0 3 0) (.insph (fld w 18 6) (fld w 12 6) (fld w 6 6) (fld w 5 1) (fld w 4 1) (fld w 3 1))
  | 0x54 => guarded (holds w 0 3 0) (.segx (fld w 18 6) (fld w 12 6) (fld w 6 6) (fld w 5 1) (fld w 4 1) (fld w 3 1))
  | 0x60 => .ok (.ldB (fld w 18 6) (fld w 12 6) (fld w 3 9) (fld w 0 3))
  | 0x61 => .ok (.ldBs (fld w 18 6) (fld w 12 6) (fld w 3 9) (fld w 0 3))
  | 0x62 => .ok (.ldH (fld w 18 6) (fld w 12 6) (fld w 3 9) (fld w 0 3))
  | 0x63 => .ok (.ldHs (fld w 18 6) (fld w 12 6) (fld w 3 9) (fld w 0 3))
  | 0x64 => .ok (.ldW (fld w 18 6) (fld w 12 6) (fld w 3 9) (fld w 0 3))
  | 0x65 => .ok (.ldD (fld w 18 6) (fld w 12 6) (fld w 3 9) (fld w 0 3))
  | 0x66 => .ok (.ldQ (fld w 18 6) (fld w 12 6) (fld w 3 9) (fld w 0 3))
  | 0x67 => .ok (.ldNt (fld w 18 6) (fld w 12 6) (fld w 3 9) (fld w 0 3))
  | 0x68 => .ok (.stB (fld w 18 6) (fld w 12 6) (fld w 3 9) (fld w 0 3))
  | 0x69 => .ok (.stH (fld w 18 6) (fld w 12 6) (fld w 3 9) (fld w 0 3))
  | 0x6A => .ok (.stW (fld w 18 6) (fld w 12 6) (fld w 3 9) (fld w 0 3))
  | 0x6B => .ok (.stD (fld w 18 6) (fld w 12 6) (fld w 3 9) (fld w 0 3))
  | 0x6C => .ok (.stQ (fld w 18 6) (fld w 12 6) (fld w 3 9) (fld w 0 3))
  | 0x6D => guarded (holds w 3 4 0 && holds w 9 3 5) (.stOf (fld w 18 6) (fld w 12 6) (fld w 7 2) (fld w 0 3))
  | 0x6E => guarded (holds w 3 4 0) (.lda (fld w 18 6) (fld w 12 6) (fld w 9 3) (fld w 7 2) (fld w 0 3))
  | 0x6F => guarded (holds w 3 4 0) (.stl (fld w 18 6) (fld w 12 6) (fld w 9 3) (fld w 7 2) (fld w 0 3))
  | 0x70 => .ok (.atomW (fld w 18 6) (fld w 12 6) (fld w 6 6) (fld w 3 3) (fld w 0 3))
  | 0x71 => .ok (.atomD (fld w 18 6) (fld w 12 6) (fld w 6 6) (fld w 3 3) (fld w 0 3))
  | 0x72 => guarded (holds w 0 3 0) (.casW (fld w 18 6) (fld w 12 6) (fld w 6 6) (fld w 3 3))
  | 0x73 => guarded (holds w 0 3 0) (.casD (fld w 18 6) (fld w 12 6) (fld w 6 6) (fld w 3 3))
  | 0x74 => guarded (holds w 19 5 0) (.pref (fld w 18 1) (fld w 12 6) (fld w 3 9) (fld w 0 3))
  | 0x80 => guarded (holds w 3 21 0) (.nop (fld w 0 3))
  | 0x81 => guarded (holds w 5 4 0) (.uadd (fld w 19 5) (fld w 14 5) (fld w 9 5) (fld w 3 2) (fld w 0 3))
  | 0x82 => guarded (holds w 5 4 0) (.usub (fld w 19 5) (fld w 14 5) (fld w 9 5) (fld w 3 2) (fld w 0 3))
  | 0x83 => .ok (.uaddi (fld w 19 5) (fld w 14 5) (fld w 3 11) (fld w 0 3))
  | 0x84 => guarded (holds w 5 4 0) (.umul (fld w 19 5) (fld w 14 5) (fld w 9 5) (fld w 3 2) (fld w 0 3))
  | 0x85 => guarded (holds w 5 4 0) (.umulh (fld w 19 5) (fld w 14 5) (fld w 9 5) (fld w 3 2) (fld w 0 3))
  | 0x86 => guarded (holds w 5 4 0) (.umulhU (fld w 19 5) (fld w 14 5) (fld w 9 5) (fld w 3 2) (fld w 0 3))
  | 0x87 => guarded (holds w 5 4 0) (.uadd64 (fld w 19 5) (fld w 14 5) (fld w 9 5) (fld w 3 2) (fld w 0 3))
  | 0x88 => guarded (holds w 5 4 0) (.uand (fld w 19 5) (fld w 14 5) (fld w 9 5) (fld w 3 2) (fld w 0 3))
  | 0x89 => guarded (holds w 5 4 0) (.uor (fld w 19 5) (fld w 14 5) (fld w 9 5) (fld w 3 2) (fld w 0 3))
  | 0x8A => guarded (holds w 5 4 0) (.uxor (fld w 19 5) (fld w 14 5) (fld w 9 5) (fld w 3 2) (fld w 0 3))
  | 0x8B => .ok (.uandi (fld w 19 5) (fld w 14 5) (fld w 3 11) (fld w 0 3))
  | 0x8C => .ok (.uori (fld w 19 5) (fld w 14 5) (fld w 3 11) (fld w 0 3))
  | 0x8D => guarded (holds w 5 4 0) (.ushl (fld w 19 5) (fld w 14 5) (fld w 9 5) (fld w 3 2) (fld w 0 3))
  | 0x8E => guarded (holds w 5 4 0) (.ushr (fld w 19 5) (fld w 14 5) (fld w 9 5) (fld w 3 2) (fld w 0 3))
  | 0x8F => guarded (holds w 5 4 0) (.usar (fld w 19 5) (fld w 14 5) (fld w 9 5) (fld w 3 2) (fld w 0 3))
  | 0x90 => guarded (holds w 8 6 0) (.ushli (fld w 19 5) (fld w 14 5) (fld w 3 5) (fld w 0 3))
  | 0x91 => guarded (holds w 8 6 0) (.ushri (fld w 19 5) (fld w 14 5) (fld w 3 5) (fld w 0 3))
  | 0x92 => guarded (holds w 5 4 0) (.umin (fld w 19 5) (fld w 14 5) (fld w 9 5) (fld w 3 2) (fld w 0 3))
  | 0x93 => guarded (holds w 5 4 0) (.uminU (fld w 19 5) (fld w 14 5) (fld w 9 5) (fld w 3 2) (fld w 0 3))
  | 0x94 => guarded (holds w 5 4 0) (.umax (fld w 19 5) (fld w 14 5) (fld w 9 5) (fld w 3 2) (fld w 0 3))
  | 0x95 => guarded (holds w 5 4 0) (.umaxU (fld w 19 5) (fld w 14 5) (fld w 9 5) (fld w 3 2) (fld w 0 3))
  | 0x96 => guarded (holds w 8 1 0) (.usetp (fld w 19 5) (fld w 14 5) (fld w 9 5) (fld w 5 3) (fld w 3 2) (fld w 0 3))
  | 0x97 => guarded (holds w 7 2 0) (.usel (fld w 19 5) (fld w 14 5) (fld w 9 5) (fld w 5 2) (fld w 3 2) (fld w 0 3))
  | 0x98 => guarded (holds w 5 9 0) (.umov (fld w 19 5) (fld w 14 5) (fld w 3 2) (fld w 0 3))
  | 0x99 => .ok (.umovi (fld w 19 5) (fld w 3 16) (fld w 0 3))
  | 0x9A => .ok (.ului (fld w 19 5) (fld w 3 16) (fld w 0 3))
  | 0x9B => guarded (holds w 5 9 0) (.upopc (fld w 19 5) (fld w 14 5) (fld w 3 2) (fld w 0 3))
  | 0x9C => guarded (holds w 5 9 0) (.uclz (fld w 19 5) (fld w 14 5) (fld w 3 2) (fld w 0 3))
  | 0x9D => guarded (holds w 6 3 0) (.ubfe (fld w 19 5) (fld w 14 5) (fld w 9 5) (fld w 5 1) (fld w 3 2) (fld w 0 3))
  | 0x9E => guarded (holds w 0 4 0) (.ubfi (fld w 19 5) (fld w 14 5) (fld w 9 5) (fld w 4 5))
  | 0x9F => guarded (holds w 0 4 0) (.umad (fld w 19 5) (fld w 14 5) (fld w 9 5) (fld w 4 5))
  | 0xA0 => .ok (.uldW (fld w 19 5) (fld w 14 5) (fld w 3 11) (fld w 0 3))
  | 0xA1 => .ok (.uldD (fld w 19 5) (fld w 14 5) (fld w 3 11) (fld w 0 3))
  | 0xA2 => .ok (.ustW (fld w 19 5) (fld w 14 5) (fld w 3 11) (fld w 0 3))
  | 0xA3 => .ok (.ustD (fld w 19 5) (fld w 14 5) (fld w 3 11) (fld w 0 3))
  | 0xA4 => guarded (holds w 8 5 0) (.rfal (fld w 19 5) (fld w 13 6) (fld w 5 3) (fld w 3 2) (fld w 0 3))
  | 0xA5 => guarded (holds w 3 5 28) (.rdl (fld w 19 5) (fld w 13 6) (fld w 8 5) (fld w 0 3))
  | 0xA6 => guarded (holds w 8 5 0) (.vlane (fld w 19 5) (fld w 13 6) (fld w 5 3) (fld w 3 2) (fld w 0 3))
  | 0xA7 => .ok (.uldH (fld w 19 5) (fld w 14 5) (fld w 3 11) (fld w 0 3))
  | 0xA8 => .ok (.ustH (fld w 19 5) (fld w 14 5) (fld w 3 11) (fld w 0 3))
  | 0xA9 => .ok (.uldB (fld w 19 5) (fld w 14 5) (fld w 3 11) (fld w 0 3))
  | 0xAA => .ok (.ustB (fld w 19 5) (fld w 14 5) (fld w 3 11) (fld w 0 3))
  | 0xB0 => .ok (.bra (fld w 22 2) (fld w 0 22))
  | 0xB1 => .ok (.brp (fld w 21 3) (fld w 10 11) (fld w 0 10))
  | 0xB2 => .ok (.call (fld w 21 3) (fld w 0 21))
  | 0xB3 => guarded (holds w 5 19 0) (.ret (fld w 3 2) (fld w 0 3))
  | 0xB4 => guarded (holds w 0 21 0) (.grow (fld w 21 3))
  | 0xB5 => guarded (holds w 5 19 0) (.shrink (fld w 3 2) (fld w 0 3))
  | 0xB6 => guarded (holds w 11 8 0) (.ovld (fld w 19 5) (fld w 3 8) (fld w 0 3))
  | 0xB7 => .ok (.ovcall (fld w 22 2) (fld w 0 22))
  | 0xB8 => guarded (holds w 5 19 0) (.ovret (fld w 3 2) (fld w 0 3))
  | 0xB9 => guarded (holds w 5 19 0) (.exit (fld w 3 2) (fld w 0 3))
  | 0xBA => guarded (holds w 14 10 0) (.trap (fld w 3 11) (fld w 0 3))
  | 0xBB => guarded (holds w 14 10 0) (.bkpt (fld w 3 11) (fld w 0 3))
  | 0xBC => guarded (holds w 5 19 0) (.yield (fld w 3 2) (fld w 0 3))
  | 0xBD => guarded (holds w 5 9 0 && holds w 19 5 0) (.brx (fld w 14 5) (fld w 3 2) (fld w 0 3))
  | 0xBE => guarded (holds w 8 6 0 && holds w 19 5 0) (.callx (fld w 14 5) (fld w 5 3) (fld w 3 2) (fld w 0 3))
  | 0xC0 => guarded (holds w 3 3 0) (.srd (fld w 23 1) (fld w 17 6) (fld w 6 11) (fld w 0 3))
  | 0xC1 => guarded (holds w 3 3 0 && holds w 22 2 0) (.swr (fld w 17 5) (fld w 6 11) (fld w 0 3))
  | 0xC2 => guarded (holds w 5 8 7) (.tagr (fld w 19 5) (fld w 13 6) (fld w 3 2) (fld w 0 3))
  | 0xC8 => decodeBar w
  | 0xC9 => guarded (holds w 5 9 0) (.racq (fld w 19 5) (fld w 14 5) (fld w 3 2) (fld w 0 3))
  | 0xCA => guarded (holds w 5 4 0) (.rpub (fld w 19 5) (fld w 14 5) (fld w 9 5) (fld w 3 2) (fld w 0 3))
  | 0xCB => guarded (holds w 5 9 0) (.rtake (fld w 19 5) (fld w 14 5) (fld w 3 2) (fld w 0 3))
  | 0xCC => guarded (holds w 5 9 0) (.rrel (fld w 19 5) (fld w 14 5) (fld w 3 2) (fld w 0 3))
  | 0xCD => guarded (holds w 14 10 0) (.waitc (fld w 12 2) (fld w 3 9) (fld w 0 3))
  | 0xCE => guarded (holds w 8 16 0) (.fence (fld w 5 3) (fld w 3 2) (fld w 0 3))
  | 0xCF => guarded (holds w 5 19 0) (.fencer (fld w 3 2) (fld w 0 3))
  | 0xD0 => guarded (holds w 5 9 0) (.mcas (fld w 19 5) (fld w 14 5) (fld w 3 2) (fld w 0 3))
  | 0xD1 => guarded (holds w 3 1 0 && holds w 7 2 0) (.atomu (fld w 19 5) (fld w 14 5) (fld w 9 5) (fld w 4 3) (fld w 0 3))
  | 0xD2 => guarded (holds w 3 1 0) (.casu (fld w 19 5) (fld w 14 5) (fld w 9 5) (fld w 4 5) (fld w 0 3))
  | 0xD8 => guarded (holds w 1 3 0 && holds w 19 5 0) (.copy (fld w 14 5) (fld w 9 5) (fld w 4 5) (fld w 0 1))
  | 0xD9 => guarded (holds w 1 3 0 && holds w 19 5 0) (.copy2d (fld w 14 5) (fld w 9 5) (fld w 4 5) (fld w 0 1))
  | 0xDA => guarded (holds w 1 3 0 && holds w 19 5 0) (.gather (fld w 14 5) (fld w 9 5) (fld w 4 5) (fld w 0 1))
  | 0xDB => guarded (holds w 1 3 0 && holds w 19 5 0) (.scatter (fld w 14 5) (fld w 9 5) (fld w 4 5) (fld w 0 1))
  | 0xDC => guarded (holds w 0 4 0 && holds w 19 5 0) (.fill (fld w 14 5) (fld w 9 5) (fld w 4 5))
  | 0xDD => guarded (holds w 1 3 0 && holds w 19 5 0) (.copyr (fld w 14 5) (fld w 9 5) (fld w 4 5) (fld w 0 1))
  | 0xE0 => guarded (holds w 0 4 0 && holds w 6 2 0) (.mma (fld w 21 3) (fld w 16 5) (fld w 11 5) (fld w 8 3) (fld w 5 1) (fld w 4 1))
  | 0xE1 => guarded (holds w 0 4 0 && holds w 7 1 0 && holds w 11 10 0) (.hadt (fld w 21 3) (fld w 8 3) (fld w 6 1) (fld w 4 2))
  | 0xE2 => guarded (holds w 0 4 0 && holds w 21 3 0) (.qtile (fld w 16 5) (fld w 11 5) (fld w 8 3) (fld w 7 1) (fld w 6 1) (fld w 4 2))
  | 0xE3 => guarded (holds w 0 4 0 && holds w 5 11 0) (.zld (fld w 21 3) (fld w 16 5) (fld w 4 1))
  | 0xE4 => guarded (holds w 0 8 0 && holds w 11 5 0 && holds w 21 3 0) (.zst (fld w 16 5) (fld w 8 3))
  | 0xE5 => guarded (holds w 0 8 0 && holds w 11 5 0 && holds w 21 3 0) (.zsta (fld w 16 5) (fld w 8 3))
  | 0xE6 => guarded (holds w 0 4 0 && holds w 5 16 0) (.zzero (fld w 21 3) (fld w 4 1))
  | 0xE7 => guarded (holds w 0 4 0 && holds w 11 10 0) (.zcvt (fld w 21 3) (fld w 8 3) (fld w 6 2) (fld w 4 2))
  | 0xE8 => guarded (holds w 0 4 0 && holds w 5 3 0 && holds w 11 10 0) (.zmov (fld w 21 3) (fld w 8 3) (fld w 4 1))
  | 0xE9 => guarded (holds w 0 16 0 && holds w 21 3 0) (.tpref (fld w 16 5))
  | 0xF0 => guarded (holds w 5 9 0) (.launch (fld w 19 5) (fld w 14 5) (fld w 3 2) (fld w 0 3))
  | 0xF1 => guarded (holds w 8 6 0) (.cancel (fld w 19 5) (fld w 14 5) (fld w 5 3) (fld w 3 2) (fld w 0 3))
  | 0xF2 => guarded (holds w 9 5 0) (.ccwait (fld w 19 5) (fld w 14 5) (fld w 5 4) (fld w 3 2) (fld w 0 3))
  | 0xF3 => guarded (holds w 5 4 0) (.alloc (fld w 19 5) (fld w 14 5) (fld w 9 5) (fld w 3 2) (fld w 0 3))
  | 0xF4 => guarded (holds w 5 4 0) (.free (fld w 19 5) (fld w 14 5) (fld w 9 5) (fld w 3 2) (fld w 0 3))
  | 0xF5 => guarded (holds w 5 4 0) (.dbell (fld w 19 5) (fld w 14 5) (fld w 9 5) (fld w 3 2) (fld w 0 3))
  | 0xF6 => guarded (holds w 19 5 0) (.cctl (fld w 14 5) (fld w 9 5) (fld w 5 4) (fld w 3 2) (fld w 0 3))
  | _ => .error .unassigned

/-- The instruction of a 32-bit word, or the reason it is none. -/
def decodeWord (w : Nat) : Except Reject Instr :=
  match decodeFields w with
  | .ok i => if i.wellFormed then .ok i else .error .illFormed
  | .error e => .error e

/-- A little-endian 32-bit word of four bytes (14 R309). -/
def wordOfBytes (b0 b1 b2 b3 : Byte) : Nat :=
  b0.toNat + 2 ^ 8 * b1.toNat + 2 ^ 16 * b2.toNat + 2 ^ 24 * b3.toNat

/-- The instruction at the head of a byte sequence, with the bytes after it. -/
def decode : List Byte → Except Reject (Instr × List Byte)
  | b0 :: b1 :: b2 :: b3 :: rest =>
    match decodeWord (wordOfBytes b0 b1 b2 b3) with
    | .ok i => .ok (i, rest)
    | .error e => .error e
  | _ => .error .truncated

/-- The four bytes of a word, the least significant first. -/
def bytesOfWord (w : Nat) : List Byte :=
  [BitVec.ofNat 8 w, BitVec.ofNat 8 (w / 2 ^ 8), BitVec.ofNat 8 (w / 2 ^ 16), BitVec.ofNat 8 (w / 2 ^ 24)]

/-- The instruction of a row's word, numbered as the opcode table numbers it. Every instruction is one 32-bit word, so the
word is laid out in its four bytes and given to the decoder. -/
def decodeTableWord (_nbits w : Nat) : Option Instr :=
  match decode (bytesOfWord w) with
  | .ok (i, _) => some i
  | .error _ => none

/-- A word with the field `x` added at bit `lo`, where the word holds zero. -/
def put {n : Nat} (w : Nat) (x : BitVec n) (lo : Nat) : Nat := w + x.toNat * 2 ^ lo

/-- The word of an instruction; a device step has none. -/
def encode : Instr → Option Nat
  | .iadd d a b g st => some (put (put (put (put (put 0x01000000 d 18) a 12) b 6) g 3) st 0)
  | .isub d a b g st => some (put (put (put (put (put 0x02000000 d 18) a 12) b 6) g 3) st 0)
  | .iaddi d a im st => some (put (put (put (put 0x03000000 d 18) a 12) im 3) st 0)
  | .imul d a b g st => some (put (put (put (put (put 0x04000000 d 18) a 12) b 6) g 3) st 0)
  | .imulh d a b g st => some (put (put (put (put (put 0x05000000 d 18) a 12) b 6) g 3) st 0)
  | .imulhU d a b g st => some (put (put (put (put (put 0x06000000 d 18) a 12) b 6) g 3) st 0)
  | .imad d a b g st => some (put (put (put (put (put 0x07000000 d 18) a 12) b 6) g 3) st 0)
  | .imin d a b g st => some (put (put (put (put (put 0x08000000 d 18) a 12) b 6) g 3) st 0)
  | .iminU d a b g st => some (put (put (put (put (put 0x09000000 d 18) a 12) b 6) g 3) st 0)
  | .imax d a b g st => some (put (put (put (put (put 0x0A000000 d 18) a 12) b 6) g 3) st 0)
  | .imaxU d a b g st => some (put (put (put (put (put 0x0B000000 d 18) a 12) b 6) g 3) st 0)
  | .iabs d a g st => some (put (put (put (put 0x0C000000 d 18) a 12) g 3) st 0)
  | .add64 d a b g st => some (put (put (put (put (put 0x0D000000 d 18) a 12) b 6) g 3) st 0)
  | .lea d a b g st => some (put (put (put (put (put 0x0E000000 d 18) a 12) b 6) g 3) st 0)
  | .leaD d a b g st => some (put (put (put (put (put 0x0F000000 d 18) a 12) b 6) g 3) st 0)
  | .and d a b g st => some (put (put (put (put (put 0x10000000 d 18) a 12) b 6) g 3) st 0)
  | .or d a b g st => some (put (put (put (put (put 0x11000000 d 18) a 12) b 6) g 3) st 0)
  | .xor d a b g st => some (put (put (put (put (put 0x12000000 d 18) a 12) b 6) g 3) st 0)
  | .not d a g st => some (put (put (put (put 0x13000000 d 18) a 12) g 3) st 0)
  | .andi d a im st => some (put (put (put (put 0x14000000 d 18) a 12) im 3) st 0)
  | .ori d a im st => some (put (put (put (put 0x15000000 d 18) a 12) im 3) st 0)
  | .xori d a im st => some (put (put (put (put 0x16000000 d 18) a 12) im 3) st 0)
  | .iaddSat d a b g st => some (put (put (put (put (put 0x17000000 d 18) a 12) b 6) g 3) st 0)
  | .shl d a b g st => some (put (put (put (put (put 0x18000000 d 18) a 12) b 6) g 3) st 0)
  | .shr d a b g st => some (put (put (put (put (put 0x19000000 d 18) a 12) b 6) g 3) st 0)
  | .sar d a b g st => some (put (put (put (put (put 0x1A000000 d 18) a 12) b 6) g 3) st 0)
  | .shli d a im st => some (put (put (put (put 0x1B000000 d 18) a 12) im 3) st 0)
  | .shri d a im st => some (put (put (put (put 0x1C000000 d 18) a 12) im 3) st 0)
  | .sari d a im st => some (put (put (put (put 0x1D000000 d 18) a 12) im 3) st 0)
  | .popc d a g st => some (put (put (put (put 0x1E000000 d 18) a 12) g 3) st 0)
  | .clz d a g st => some (put (put (put (put 0x1F000000 d 18) a 12) g 3) st 0)
  | .brev d a g st => some (put (put (put (put 0x20000000 d 18) a 12) g 3) st 0)
  | .bfe d a b g st => some (put (put (put (put (put 0x21000000 d 18) a 12) b 6) g 3) st 0)
  | .bfeS d a b g st => some (put (put (put (put (put 0x22000000 d 18) a 12) b 6) g 3) st 0)
  | .bfi d a b g st => some (put (put (put (put (put 0x23000000 d 18) a 12) b 6) g 3) st 0)
  | .itest p c a b g st => some (put (put (put (put (put (put 0x24000000 p 21) c 18) a 12) b 6) g 3) st 0)
  | .sel d a b m st => some (put (put (put (put (put 0x25000000 d 18) a 12) b 6) m 3) st 0)
  | .mov d a g st => some (put (put (put (put 0x26000000 d 18) a 12) g 3) st 0)
  | .movi d im st => some (put (put (put 0x27000000 d 18) im 3) st 0)
  | .slane d a b m st => some (put (put (put (put (put 0x28000000 d 18) a 12) b 6) m 3) st 0)
  | .isubSat d a b g st => some (put (put (put (put (put 0x29000000 d 18) a 12) b 6) g 3) st 0)
  | .idot4 d a b g st => some (put (put (put (put (put 0x2A000000 d 18) a 12) b 6) g 3) st 0)
  | .idot8 d a b g st => some (put (put (put (put (put 0x2B000000 d 18) a 12) b 6) g 3) st 0)
  | .pswz d a b g st => some (put (put (put (put (put 0x2C000000 d 18) a 12) b 6) g 3) st 0)
  | .itestD p c a b g st => some (put (put (put (put (put (put 0x2D000000 p 21) c 18) a 12) b 6) g 3) st 0)
  | .fadd d a b g st => some (put (put (put (put (put 0x30000000 d 18) a 12) b 6) g 3) st 0)
  | .fsub d a b g st => some (put (put (put (put (put 0x31000000 d 18) a 12) b 6) g 3) st 0)
  | .fmul d a b g st => some (put (put (put (put (put 0x32000000 d 18) a 12) b 6) g 3) st 0)
  | .fma d a b g st => some (put (put (put (put (put 0x33000000 d 18) a 12) b 6) g 3) st 0)
  | .fms d a b g st => some (put (put (put (put (put 0x34000000 d 18) a 12) b 6) g 3) st 0)
  | .fnma d a b g st => some (put (put (put (put (put 0x35000000 d 18) a 12) b 6) g 3) st 0)
  | .fmin d a b g st => some (put (put (put (put (put 0x36000000 d 18) a 12) b 6) g 3) st 0)
  | .fmax d a b g st => some (put (put (put (put (put 0x37000000 d 18) a 12) b 6) g 3) st 0)
  | .fabs d a g st => some (put (put (put (put 0x38000000 d 18) a 12) g 3) st 0)
  | .fneg d a g st => some (put (put (put (put 0x39000000 d 18) a 12) g 3) st 0)
  | .ftest p c a b g st => some (put (put (put (put (put (put 0x3A000000 p 21) c 18) a 12) b 6) g 3) st 0)
  | .fclass d a g st => some (put (put (put (put 0x3B000000 d 18) a 12) g 3) st 0)
  | .frcp d a g st => some (put (put (put (put 0x3C000000 d 18) a 12) g 3) st 0)
  | .frsq d a g st => some (put (put (put (put 0x3D000000 d 18) a 12) g 3) st 0)
  | .fsqrt d a g st => some (put (put (put (put 0x3E000000 d 18) a 12) g 3) st 0)
  | .fexp2 d a g st => some (put (put (put (put 0x3F000000 d 18) a 12) g 3) st 0)
  | .flog2 d a g st => some (put (put (put (put 0x40000000 d 18) a 12) g 3) st 0)
  | .fsin d a g st => some (put (put (put (put 0x41000000 d 18) a 12) g 3) st 0)
  | .fcos d a g st => some (put (put (put (put 0x42000000 d 18) a 12) g 3) st 0)
  | .frnd d a f r st => some (put (put (put (put (put 0x43000000 d 18) a 12) f 7) r 4) st 0)
  | .fscl d a b g st => some (put (put (put (put (put 0x44000000 d 18) a 12) b 6) g 3) st 0)
  | .fcvt d a f r st => some (put (put (put (put (put 0x45000000 d 18) a 12) f 7) r 4) st 0)
  | .icvt d a f r st => some (put (put (put (put (put 0x46000000 d 18) a 12) f 7) r 4) st 0)
  | .tag d a f st => some (put (put (put (put 0x47000000 d 18) a 12) f 7) st 0)
  | .fdot2 d a b g st => some (put (put (put (put (put 0x48000000 d 18) a 12) b 6) g 3) st 0)
  | .fdot4 d a b g st => some (put (put (put (put (put 0x49000000 d 18) a 12) b 6) g 3) st 0)
  | .orient2 d a im x n f => some (put (put (put (put (put (put 0x50000000 d 18) a 12) im 6) x 5) n 4) f 3)
  | .orient3 d a im x n f => some (put (put (put (put (put (put 0x51000000 d 18) a 12) im 6) x 5) n 4) f 3)
  | .incirc d a im x n f => some (put (put (put (put (put (put 0x52000000 d 18) a 12) im 6) x 5) n 4) f 3)
  | .insph d a im x n f => some (put (put (put (put (put (put 0x53000000 d 18) a 12) im 6) x 5) n 4) f 3)
  | .segx d a im x n f => some (put (put (put (put (put (put 0x54000000 d 18) a 12) im 6) x 5) n 4) f 3)
  | .ldB d a o g => some (put (put (put (put 0x60000000 d 18) a 12) o 3) g 0)
  | .ldBs d a o g => some (put (put (put (put 0x61000000 d 18) a 12) o 3) g 0)
  | .ldH d a o g => some (put (put (put (put 0x62000000 d 18) a 12) o 3) g 0)
  | .ldHs d a o g => some (put (put (put (put 0x63000000 d 18) a 12) o 3) g 0)
  | .ldW d a o g => some (put (put (put (put 0x64000000 d 18) a 12) o 3) g 0)
  | .ldD d a o g => some (put (put (put (put 0x65000000 d 18) a 12) o 3) g 0)
  | .ldQ d a o g => some (put (put (put (put 0x66000000 d 18) a 12) o 3) g 0)
  | .ldNt d a o g => some (put (put (put (put 0x67000000 d 18) a 12) o 3) g 0)
  | .stB d a o g => some (put (put (put (put 0x68000000 d 18) a 12) o 3) g 0)
  | .stH d a o g => some (put (put (put (put 0x69000000 d 18) a 12) o 3) g 0)
  | .stW d a o g => some (put (put (put (put 0x6A000000 d 18) a 12) o 3) g 0)
  | .stD d a o g => some (put (put (put (put 0x6B000000 d 18) a 12) o 3) g 0)
  | .stQ d a o g => some (put (put (put (put 0x6C000000 d 18) a 12) o 3) g 0)
  | .stOf d a w g => some (put (put (put (put 0x6D000A00 d 18) a 12) w 7) g 0)
  | .lda d a c w g => some (put (put (put (put (put 0x6E000000 d 18) a 12) c 9) w 7) g 0)
  | .stl d a c w g => some (put (put (put (put (put 0x6F000000 d 18) a 12) c 9) w 7) g 0)
  | .atomW d a b c o => some (put (put (put (put (put 0x70000000 d 18) a 12) b 6) c 3) o 0)
  | .atomD d a b c o => some (put (put (put (put (put 0x71000000 d 18) a 12) b 6) c 3) o 0)
  | .casW d a b c => some (put (put (put (put 0x72000000 d 18) a 12) b 6) c 3)
  | .casD d a b c => some (put (put (put (put 0x73000000 d 18) a 12) b 6) c 3)
  | .pref l a o g => some (put (put (put (put 0x74000000 l 18) a 12) o 3) g 0)
  | .nop st => some (put 0x80000000 st 0)
  | .uadd d a b q st => some (put (put (put (put (put 0x81000000 d 19) a 14) b 9) q 3) st 0)
  | .usub d a b q st => some (put (put (put (put (put 0x82000000 d 19) a 14) b 9) q 3) st 0)
  | .uaddi d a im st => some (put (put (put (put 0x83000000 d 19) a 14) im 3) st 0)
  | .umul d a b q st => some (put (put (put (put (put 0x84000000 d 19) a 14) b 9) q 3) st 0)
  | .umulh d a b q st => some (put (put (put (put (put 0x85000000 d 19) a 14) b 9) q 3) st 0)
  | .umulhU d a b q st => some (put (put (put (put (put 0x86000000 d 19) a 14) b 9) q 3) st 0)
  | .uadd64 d a b q st => some (put (put (put (put (put 0x87000000 d 19) a 14) b 9) q 3) st 0)
  | .uand d a b q st => some (put (put (put (put (put 0x88000000 d 19) a 14) b 9) q 3) st 0)
  | .uor d a b q st => some (put (put (put (put (put 0x89000000 d 19) a 14) b 9) q 3) st 0)
  | .uxor d a b q st => some (put (put (put (put (put 0x8A000000 d 19) a 14) b 9) q 3) st 0)
  | .uandi d a im st => some (put (put (put (put 0x8B000000 d 19) a 14) im 3) st 0)
  | .uori d a im st => some (put (put (put (put 0x8C000000 d 19) a 14) im 3) st 0)
  | .ushl d a b q st => some (put (put (put (put (put 0x8D000000 d 19) a 14) b 9) q 3) st 0)
  | .ushr d a b q st => some (put (put (put (put (put 0x8E000000 d 19) a 14) b 9) q 3) st 0)
  | .usar d a b q st => some (put (put (put (put (put 0x8F000000 d 19) a 14) b 9) q 3) st 0)
  | .ushli d a im st => some (put (put (put (put 0x90000000 d 19) a 14) im 3) st 0)
  | .ushri d a im st => some (put (put (put (put 0x91000000 d 19) a 14) im 3) st 0)
  | .umin d a b q st => some (put (put (put (put (put 0x92000000 d 19) a 14) b 9) q 3) st 0)
  | .uminU d a b q st => some (put (put (put (put (put 0x93000000 d 19) a 14) b 9) q 3) st 0)
  | .umax d a b q st => some (put (put (put (put (put 0x94000000 d 19) a 14) b 9) q 3) st 0)
  | .umaxU d a b q st => some (put (put (put (put (put 0x95000000 d 19) a 14) b 9) q 3) st 0)
  | .usetp d a b c q st => some (put (put (put (put (put (put 0x96000000 d 19) a 14) b 9) c 5) q 3) st 0)
  | .usel d a b m q st => some (put (put (put (put (put (put 0x97000000 d 19) a 14) b 9) m 5) q 3) st 0)
  | .umov d a q st => some (put (put (put (put 0x98000000 d 19) a 14) q 3) st 0)
  | .umovi d im st => some (put (put (put 0x99000000 d 19) im 3) st 0)
  | .ului d im st => some (put (put (put 0x9A000000 d 19) im 3) st 0)
  | .upopc d a q st => some (put (put (put (put 0x9B000000 d 19) a 14) q 3) st 0)
  | .uclz d a q st => some (put (put (put (put 0x9C000000 d 19) a 14) q 3) st 0)
  | .ubfe d a b m q st => some (put (put (put (put (put (put 0x9D000000 d 19) a 14) b 9) m 5) q 3) st 0)
  | .ubfi d a b c => some (put (put (put (put 0x9E000000 d 19) a 14) b 9) c 4)
  | .umad d a b c => some (put (put (put (put 0x9F000000 d 19) a 14) b 9) c 4)
  | .uldW d a im st => some (put (put (put (put 0xA0000000 d 19) a 14) im 3) st 0)
  | .uldD d a im st => some (put (put (put (put 0xA1000000 d 19) a 14) im 3) st 0)
  | .ustW d a im st => some (put (put (put (put 0xA2000000 d 19) a 14) im 3) st 0)
  | .ustD d a im st => some (put (put (put (put 0xA3000000 d 19) a 14) im 3) st 0)
  | .rfal d v p m st => some (put (put (put (put (put 0xA4000000 d 19) v 13) p 5) m 3) st 0)
  | .rdl d v b st => some (put (put (put (put 0xA50000E0 d 19) v 13) b 8) st 0)
  | .vlane d v p m st => some (put (put (put (put (put 0xA6000000 d 19) v 13) p 5) m 3) st 0)
  | .uldH d a im st => some (put (put (put (put 0xA7000000 d 19) a 14) im 3) st 0)
  | .ustH d a im st => some (put (put (put (put 0xA8000000 d 19) a 14) im 3) st 0)
  | .uldB d a im st => some (put (put (put (put 0xA9000000 d 19) a 14) im 3) st 0)
  | .ustB d a im st => some (put (put (put (put 0xAA000000 d 19) a 14) im 3) st 0)
  | .bra q o => some (put (put 0xB0000000 q 22) o 0)
  | .brp p o h => some (put (put (put 0xB1000000 p 21) o 10) h 0)
  | .call f o => some (put (put 0xB2000000 f 21) o 0)
  | .ret q st => some (put (put 0xB3000000 q 3) st 0)
  | .grow f => some (put 0xB4000000 f 21)
  | .shrink q st => some (put (put 0xB5000000 q 3) st 0)
  | .ovld d im st => some (put (put (put 0xB6000000 d 19) im 3) st 0)
  | .ovcall q o => some (put (put 0xB7000000 q 22) o 0)
  | .ovret q st => some (put (put 0xB8000000 q 3) st 0)
  | .exit q st => some (put (put 0xB9000000 q 3) st 0)
  | .trap im st => some (put (put 0xBA000000 im 3) st 0)
  | .bkpt im st => some (put (put 0xBB000000 im 3) st 0)
  | .yield q st => some (put (put 0xBC000000 q 3) st 0)
  | .brx a q st => some (put (put (put 0xBD000000 a 14) q 3) st 0)
  | .callx a f q st => some (put (put (put (put 0xBE000000 a 14) f 5) q 3) st 0)
  | .srd k d r st => some (put (put (put (put 0xC0000000 k 23) d 17) r 6) st 0)
  | .swr d r st => some (put (put (put 0xC1000000 d 17) r 6) st 0)
  | .tagr d v m st => some (put (put (put (put 0xC20000E0 d 19) v 13) m 3) st 0)
  | .barInit d a b q st => some (put (put (put (put (put 0xC8000000 d 19) a 14) b 9) q 3) st 0)
  | .barArv d a c q st => some (put (put (put (put (put 0xC8000020 d 19) a 14) c 9) q 3) st 0)
  | .barWait d a c q st => some (put (put (put (put (put 0xC8000040 d 19) a 14) c 9) q 3) st 0)
  | .barArw d a c q st => some (put (put (put (put (put 0xC8000060 d 19) a 14) c 9) q 3) st 0)
  | .barTest d a j c q st => some (put (put (put (put (put (put 0xC8000080 d 19) a 14) j 12) c 9) q 3) st 0)
  | .racq d a q st => some (put (put (put (put 0xC9000000 d 19) a 14) q 3) st 0)
  | .rpub d a b q st => some (put (put (put (put (put 0xCA000000 d 19) a 14) b 9) q 3) st 0)
  | .rtake d a q st => some (put (put (put (put 0xCB000000 d 19) a 14) q 3) st 0)
  | .rrel d a q st => some (put (put (put (put 0xCC000000 d 19) a 14) q 3) st 0)
  | .waitc c n st => some (put (put (put 0xCD000000 c 12) n 3) st 0)
  | .fence c q st => some (put (put (put 0xCE000000 c 5) q 3) st 0)
  | .fencer q st => some (put (put 0xCF000000 q 3) st 0)
  | .mcas d a q st => some (put (put (put (put 0xD0000000 d 19) a 14) q 3) st 0)
  | .atomu d a b o sc => some (put (put (put (put (put 0xD1000000 d 19) a 14) b 9) o 4) sc 0)
  | .casu d a b c sc => some (put (put (put (put (put 0xD2000000 d 19) a 14) b 9) c 4) sc 0)
  | .copy a b c n => some (put (put (put (put 0xD8000000 a 14) b 9) c 4) n 0)
  | .copy2d a b c n => some (put (put (put (put 0xD9000000 a 14) b 9) c 4) n 0)
  | .gather a b c n => some (put (put (put (put 0xDA000000 a 14) b 9) c 4) n 0)
  | .scatter a b c n => some (put (put (put (put 0xDB000000 a 14) b 9) c 4) n 0)
  | .fill a b c => some (put (put (put 0xDC000000 a 14) b 9) c 4)
  | .copyr a b c n => some (put (put (put (put 0xDD000000 a 14) b 9) c 4) n 0)
  | .mma z a b y im j => some (put (put (put (put (put (put 0xE0000000 z 21) a 16) b 11) y 8) im 5) j 4)
  | .hadt z y h n => some (put (put (put (put 0xE1000000 z 21) y 8) h 6) n 4)
  | .qtile a b y m u t => some (put (put (put (put (put (put 0xE2000000 a 16) b 11) y 8) m 7) u 6) t 4)
  | .zld z a im => some (put (put (put 0xE3000000 z 21) a 16) im 4)
  | .zst a y => some (put (put 0xE4000000 a 16) y 8)
  | .zsta a y => some (put (put 0xE5000000 a 16) y 8)
  | .zzero z im => some (put (put 0xE6000000 z 21) im 4)
  | .zcvt z y r c => some (put (put (put (put 0xE7000000 z 21) y 8) r 6) c 4)
  | .zmov z y t => some (put (put (put 0xE8000000 z 21) y 8) t 4)
  | .tpref a => some (put 0xE9000000 a 16)
  | .launch d a q st => some (put (put (put (put 0xF0000000 d 19) a 14) q 3) st 0)
  | .cancel d a l q st => some (put (put (put (put (put 0xF1000000 d 19) a 14) l 5) q 3) st 0)
  | .ccwait d a m q st => some (put (put (put (put (put 0xF2000000 d 19) a 14) m 5) q 3) st 0)
  | .alloc d a b q st => some (put (put (put (put (put 0xF3000000 d 19) a 14) b 9) q 3) st 0)
  | .free d a b q st => some (put (put (put (put (put 0xF4000000 d 19) a 14) b 9) q 3) st 0)
  | .dbell d a b q st => some (put (put (put (put (put 0xF5000000 d 19) a 14) b 9) q 3) st 0)
  | .cctl a b m q st => some (put (put (put (put (put 0xF6000000 a 14) b 9) m 5) q 3) st 0)
  | .submissionEntryRead => none
  | .pendingLaunchAdmit => none
  | .heldLaunchRecheck => none
  | .placementOpportunity => none
  | .overlayPlacementLoadDone => none
  | .issueCycle => none
  | .swapidleExpiry => none
  | .groupResume => none
  | .registerLineLoad => none
  | .muIdleEntry => none
  | .muLeaveIdleStart => none
  | .muLeaveIdleDone => none
  | .activityForecastWrite => none
  | .groupEnd => none
  | .unitRetire => none
  | .checkPhaseDone => none
  | .loadDataReturn => none
  | .copyEngineOpComplete => none
  | .copyrSlotAcquire => none
  | .microTileComplete => none
  | .matrixOpComplete => none
  | .epuLaneDecided => none
  | .geometricComplete => none
  | .epuReset => none
  | .muHangReset => none
  | .muResetEnd => none
  | .mcasLocksComplete => none
  | .waitforWalk => none
  | .remoteRequest => none
  | .remoteReply => none
  | .remoteStoreAck => none
  | .faultTicketResponse => none
  | .ticketTableEntry => none
  | .replayNotice => none
  | .tktdone => none
  | .markerReceived => none
  | .flaggedStorePerform => none
  | .markerReport => none
  | .esctimerExpiry => none
  | .planeDead => none
  | .planemapWrite => none
  | .planemapChangeApply => none
  | .podmaskWrite => none
  | .msiArrival => none
  | .arrivalQueueApply => none
  | .notifyArrival => none
  | .arrcmdBind => none
  | .arrcmdUnbind => none
  | .ntbMailboxWrite => none
  | .ntbInboundAccess => none
  | .doorbellMark => none
  | .tailWriteFailed => none
  | .dqEnable => none
  | .atsTranslationRequest => none
  | .endpointMemoryRequest => none
  | .pageRequest => none
  | .prgresp => none
  | .atsInvalidateCompletion => none
  | .atsInvalidateTimeout => none
  | .dpcContainment => none
  | .invalidatePage => none
  | .invalidateRange => none
  | .invalidateJob => none
  | .invalidateAll => none
  | .invalidationComplete => none
  | .migrationStart => none
  | .migrationDrainDone => none
  | .migrationCopyDone => none
  | .groupcmdReissue => none
  | .groupcmdSkip => none
  | .groupcmdLose => none
  | .groupcmdReplay => none
  | .groupcmdStop => none
  | .groupcmdRun => none
  | .svccmdRetry => none
  | .svccmdFail => none
  | .deviceRingRecordWrite => none
  | .tcompl => none
  | .weightSwitch => none
  | .weightStoreInstall => none
  | .weightInstallDone => none
  | .hrateTargetWrite => none
  | .hrateSwitchDone => none
  | .mucapWrite => none
  | .powerOn => none
  | .podElection => none
  | .chunkReceived => none
  | .chipAssignment => none
  | .leaderContact => none
  | .keepaliveSend => none
  | .upstreamSilent => none
  | .correctedError => none
  | .uncorrectableError => none
  | .scrubPass => none
  | .coreFailed => none
  | .l2SliceFailed => none
  | .spdmMeasurementRequest => none
  | .hartMemoryAccess => none
  | .registerWrite => none
  | .accessTakesEffect => none
  | .heapDescriptorLocked => none
  | .epuResetEnd => none
  | .l2SpareTakeoverDone => none
  | .spareCoreDrainDone => none
  | .markerReportArrival => none
  | .portLinkUp => none
  | .dpcRelease => none
  | .powerLoss => none
  | .keepaliveReceived => none
  | .heldChunkReport => none
  | .chunkRerequest => none
  | .recoveryImageAccept => none

end Sys2Proof
end

