-- ==== Sys2Proof/Machine/Bits.lean ====
section
/-! DEFINITION. Bit fields, extensions and small integer functions used throughout (spec 14 R335). -/

namespace Sys2Proof.Machine

/-- Bits [lo + n - 1 : lo] of a number (14 R335). -/
def bitsOf (x lo n : Nat) : Nat := x / 2 ^ lo % 2 ^ n

/-- A number with bits [lo + n - 1 : lo] replaced by the low `n` bits of `v`. -/
def setBits (x lo n v : Nat) : Nat :=
  x / 2 ^ (lo + n) * 2 ^ (lo + n) + v % 2 ^ n * 2 ^ lo + x % 2 ^ lo

/-- 1 for true, 0 for false. -/
def b2n (b : Bool) : Nat := if b then 1 else 0

/-- The low 32 bits of a number as a register value. -/
def w32 (x : Nat) : Word := BitVec.ofNat 32 x

/-- An integer reduced to 32 bits. -/
def i32 (x : Int) : Word := BitVec.ofInt 32 x

/-- The 64-bit number of a register pair, the low register first (04 R80). -/
def pairNat (lo hi : Word) : Nat := lo.toNat + 2 ^ 32 * hi.toNat

/-- The number of set bits of a word. -/
def popcount (x : Word) : Nat := (List.range 32).countP (fun i => x.getLsbD i)

/-- The number of zero bits above the highest set bit; 32 for zero (15 R363). -/
def leadingZeros (x : Word) : Nat := if x = 0 then 32 else 31 - Nat.log2 x.toNat

/-- The word with its bits reversed (15 R351). -/
def bitReverse (x : Word) : Word := w32 ((List.range 32).foldl (fun a i => a + b2n (x.getLsbD (31 - i)) * 2 ^ i) 0)

/-- An integer clamped to a range. -/
def clampInt (lo hi x : Int) : Int := max lo (min hi x)

/-- The lowest set lane of a mask, or 32. -/
def lowestLane (m : Mask) : Nat := ((List.range 32).find? (fun i => m.getLsbD i)).getD 32

/-- The lanes of a mask, ascending. -/
def lanesOf (m : Mask) : List Nat := (List.range 32).filter (fun i => m.getLsbD i)

/-- The mask of the lanes a predicate holds for. -/
def maskOf (f : Nat → Bool) : Mask := w32 ((List.range 32).foldl (fun a i => a + b2n (f i) * 2 ^ i) 0)

/-- The mask with lane `l` alone. -/
def laneBit (l : Nat) : Mask := w32 (2 ^ l)

/-- The value of lane `l` of a lane line; lanes are 0 to 31. -/
def lane {α : Type} [Inhabited α] (x : Lanes α) (l : Nat) : α := x.toList.getD l default

/-- The bytes of a number, the least significant first. -/
def leBytes : Nat → Nat → List Byte
  | 0, _ => []
  | n + 1, x => BitVec.ofNat 8 x :: leBytes n (x / 256)

/-- The number of a byte sequence, the least significant first. -/
def leNat : List Byte → Nat
  | [] => 0
  | b :: t => b.toNat + 256 * leNat t

end Sys2Proof.Machine
end

