-- ==== Sys2Proof/Config.lean ====
section
/-! DEFINITION. What an implementation fixes, and the free values of the model: opaque constants about which nothing can be proved. -/

namespace Sys2Proof.Config

/-- A free value: the choice the device makes where the specification leaves one, for the `n`-th choice point of a run
and an index within it. Nothing constrains it.
DESIGN CHOICE: log 4. -/
opaque freeNat : Nat → Nat → Nat

/-- A free 32-bit value, for the `n`-th point of a run that yields an undefined value and an index within it. -/
opaque freeWord : Nat → Nat → Word

/-- A free byte, likewise. -/
opaque freeByte : Nat → Nat → Byte

/-- The module's serial number, set at the factory (13 R290).
DESIGN CHOICE: log 88. -/
opaque serial : BitVec 64

/-- SHAKE256 with 256-bit output (13 R295) of a byte string, given by its length and its bytes other than zero, by position.
DESIGN CHOICE: log 87. -/
opaque shake256 : Nat → List (Nat × Byte) → BitVec 256

/-- The measurements of the boot ROM's identity and of the fuse and configuration state (13 R304). -/
opaque romIdentity : BitVec 256
opaque fuseState : BitVec 256

/-- Whether the header of a firmware image is well formed and its length in range, and whether its signature verifies under the
firmware key (13 R304). -/
opaque firmwareSound : List Byte → Bool
opaque firmwareVerifies : List Byte → Bool

/-- Whether a manifest's signature verifies under the installation key (13 R295): the signed bytes and the signature. -/
opaque manifestVerifies : List Byte → List Byte → Bool

/-- Whether the manifest that a leader sends verifies, by its chunks' digests (13 R297). -/
opaque leaderVerifies : List (Nat × BitVec 256) → Bool

/-- The signature of the device key over the measurement log and M (13 R305). -/
opaque sign : List (Nat × BitVec 256) → BitVec 256 → Nat

end Sys2Proof.Config
end

