-- ==== Sys2Proof/Machine/Assoc.lean ====
section
/-! DEFINITION. Sparse tables: lists of (key, value) pairs in one canonical form, keys strictly rising.
A table with a default (a memory, a register area) lists no entry equal to the default. -/

namespace Sys2Proof.Machine.Assoc

variable {β : Type}

/-- The entry at a key. -/
def find (k : Nat) : List (Nat × β) → Option β
  | [] => none
  | (j, v) :: t => if k = j then some v else find k t

/-- Stores an entry at a key, replacing what stood there. -/
def put (k : Nat) (v : β) : List (Nat × β) → List (Nat × β)
  | [] => [(k, v)]
  | (j, w) :: t =>
    if k = j then (k, v) :: t else if k < j then (k, v) :: (j, w) :: t else (j, w) :: put k v t

/-- Removes the entry at a key. -/
def del (k : Nat) (t : List (Nat × β)) : List (Nat × β) := t.filter (fun e => decide (e.1 ≠ k))

/-- The value at a key of a table with a default. -/
def get (dflt : β) (t : List (Nat × β)) (k : Nat) : β := (find k t).getD dflt

/-- Stores into a table with a default; storing the default removes the entry. -/
def set [DecidableEq β] (dflt : β) (t : List (Nat × β)) (k : Nat) (v : β) : List (Nat × β) :=
  if v = dflt then del k t else put k v t

/-- Changes the entry at a key, when there is one. -/
def modify (k : Nat) (f : β → β) (t : List (Nat × β)) : List (Nat × β) :=
  match find k t with
  | some v => put k (f v) t
  | none => t

/-- Every key of the table exceeds the bound and keys strictly rise. -/
def sortedFrom : Nat → List (Nat × β) → Bool
  | _, [] => true
  | lo, (j, _) :: t => decide (lo ≤ j) && sortedFrom (j + 1) t

/-- Keys strictly rise. -/
def sorted (t : List (Nat × β)) : Bool := sortedFrom 0 t

/-- The canonical form of a table with a default. -/
def wf [DecidableEq β] (dflt : β) (t : List (Nat × β)) : Bool :=
  sorted t && t.all (fun e => decide (e.2 ≠ dflt))

end Sys2Proof.Machine.Assoc
end

