-- ==== Sys2Proof/Machine/State.lean ====
section
/-! DEFINITION. The state of one L480 module, as plain data: everything the specification gives the machine, together with the
model's own fields (the agenda, the issue cursor, the counter of free values). -/

namespace Sys2Proof.Machine

/-! ### Faults and refusals -/

/-- The ways a step of the model stops. -/
inductive Fault where
  /-- Raised by an instruction's meaning when no group stands at issue (State.issue names no placed group with a live fragment):
  an instruction executes only for a group (02 R17). Safe: the machine never issues without a group. -/
  | noIssuer
  deriving DecidableEq, Repr

/-- The instructions for which the model gives no meaning. -/
inductive Refusal where
  /-- Raised by the dispatch for an instruction without a meaning, by mnemonic. Safe. -/
  | notModelled (mnemonic : String)
  deriving DecidableEq, Repr

/-! ### Groups -/

/-- The role of a group (02 R22). -/
inductive Role where
  | copy
  | matrix
  | vector
  deriving DecidableEq, Repr

/-- A program counter: overlay and word offset (14 R309). -/
structure Pc where
  ovl : BitVec 8
  off : BitVec 14
  /-- The program counter stands after the last word of a 65,536-byte overlay, which no word offset names (14 R325). -/
  past : Bool
  deriving DecidableEq, Repr

/-- A live slot or a divergence-stack entry (04 R92), with its reserved bits. -/
structure Entry where
  mask : Mask := 0
  pc : Pc := ⟨0, 0, false⟩
  kind : BitVec 2 := 0
  link : BitVec 7 := 0x7F
  rsv63 : BitVec 1 := 0
  hinge : Pc := ⟨0, 0, false⟩
  rsv86 : BitVec 10 := 0
  arrived : Mask := 0
  deriving DecidableEq, Repr

/-- A register that the scoreboard tracks: a logical lane line (04 R82), a uniform register, a predicate, a tile. -/
inductive Reg where
  | v (line : Nat)
  | k (n : Nat)
  | p (n : Nat)
  | q (n : Nat)
  | z (t : Nat)
  deriving DecidableEq, Repr

/-- What a register held before a result of fixed latency landed. -/
inductive OldValue where
  | line (x : Lanes Word) (tag : BitVec 8)
  | word (x : Word)
  deriving DecidableEq, Repr

/-- A fixed-latency result in flight (14 R318, R319): the register, the cycle of its partition from which a read is safe, and
the value before the write. -/
structure Hazard where
  reg : Reg
  lands : Nat
  old : OldValue
  deriving DecidableEq, Repr

/-- The class of an engine operation, in the order of the counters (08 R179). -/
inductive EngineClass where
  | copy
  | matrix
  | remote
  | io
  deriving DecidableEq, Repr

/-- A trap or fault met by a check (10 R221 to R224). -/
structure Trap where
  kind : BitVec 8
  cause : BitVec 4 := 0
  write : Bool := false
  addr : Nat := 0
  lanes : Mask := 0
  entry : BitVec 8 := 0
  level : BitVec 2 := 0
  info : BitVec 64 := 0
  /-- The physical address of the configuration error that the fault also reports (07 R150; 10 R211, R216). -/
  cfg : Option Nat := .none
  deriving DecidableEq, Repr

/-- A pending engine failure: the first of its class in full, the PCword of the failed instruction and the count of the later
failures of the class (08 R181). -/
structure Failure where
  trap : Trap
  pcword : BitVec 22
  more : Nat := 0
  deriving DecidableEq, Repr

/-- The fault record (10 R221). -/
structure Frec where
  faultword : BitVec 32 := 0
  pcword : BitVec 32 := 0
  faddr : BitVec 64 := 0
  lanes : BitVec 32 := 0
  entry : BitVec 8 := 0
  level : BitVec 8 := 0
  seq : BitVec 16 := 0
  info : BitVec 64 := 0
  ppoisv : BitVec 64 := 0
  ppoisk : BitVec 32 := 0
  deriving DecidableEq, Repr

/-! ### Memory order (09 R199 to R203) -/

/-- The bytes that one step of the machine stored, as they stood before it; whether a read-modify-write stored them. The moment is the
number of the step: the order of moments is the order of all stores (09 R202, R203). -/
structure Moment where
  time : Nat
  old : List Host.Cell
  rmw : Bool
  /-- A hart or an endpoint stored them, and no group has read them yet (09 R194, R195). -/
  outside : Bool := false
  deriving DecidableEq, Repr

/-- A moment before which an agent no longer reads some bytes (09 R202): the first flat address and the number of the bytes, and the lanes
of the agent whose accesses it binds. -/
structure Seen where
  lo : Nat
  len : Nat
  time : Nat
  owner : Mask := BitVec.allOnes 32
  /-- Whether the access stored. -/
  store : Bool := false
  deriving DecidableEq, Repr

/-- A memory operation that takes effect before the later accesses of these lanes to the same bytes (09 R202), those after `po` in
program order. -/
structure Debt where
  op : Nat
  owner : Mask
  po : Nat
  deriving DecidableEq, Repr

/-- A group as scopes see it (09 R194): its launch, unit, cluster when its launch has clusters, and index. -/
structure Party where
  launch : Nat
  unit : Nat
  cluster : Option Nat
  group : Nat
  deriving DecidableEq, Repr

/-- What stands before a release (09 R201): the moments that its agent had seen, and the operations that had not taken effect. -/
structure View where
  seen : List Seen := []
  debts : List Nat := []
  deriving DecidableEq, Repr

/-- A release, or a store after a fence, that an acquire may synchronise with (09 R200): the bytes stored and the moment, or the
object and the event on it; the agent, none for the device, and scope, 6 for ST.OF and for stores after FENCER, which an acquire at pod scope alone takes;
whether a fence made it; what stands before it. -/
structure Message where
  id : Nat
  lo : Nat
  len : Nat
  time : Nat
  /-- 0 for stores to memory; an event of the object at `lo` otherwise. -/
  event : Nat := 0
  agent : Option Party
  scope : Nat
  fence : Bool := false
  view : View
  deriving DecidableEq, Repr

/-- A fence of some lanes: its scope (6 for FENCER), its place in program order, and what stands before it. -/
structure Fenced where
  scope : Nat
  owner : Mask
  po : Nat
  view : View
  deriving DecidableEq, Repr

/-- What binds the later accesses of a group in memory order.
DESIGN CHOICE: log 10. -/
structure Order where
  /-- For each lane: the moment from which its fragment's loads read, and that from which they also read what harts and endpoints stored;
  that of its latest release at dev scope or wider; the latest moment of its accesses, and of its stores; that of its latest load of another
  chip. -/
  floor : List (Nat × Nat) := []
  floorSys : List (Nat × Nat) := []
  released : List (Nat × Nat) := []
  last : List (Nat × Nat) := []
  stored : List (Nat × Nat) := []
  far : List (Nat × Nat) := []
  /-- For each lane: the place in program order after its latest FENCER. -/
  fencer : List (Nat × Nat) := []
  seen : List Seen := []
  debts : List Debt := []
  /-- The messages whose stores plain loads have returned, by message and lanes. -/
  heard : List (Nat × Mask) := []
  fenced : List Fenced := []
  /-- The accesses of the group's completed engine operations, by class, that no WAITC of the whole group has observed yet (09 R197 row 9). -/
  engine : List (Nat × Seen) := []
  deriving DecidableEq, Repr

/-- What a group waits for on an object in memory (02 R42). -/
inductive Until where
  /-- CCWAIT on a completion counter, begun in generation `gen` (15 R361). -/
  | counter (gen : Nat)
  /-- A barrier arrival that would run two phases ahead (08 R167), with the arrival's phase slot and scope; `andWait` for ARW. -/
  | arrival (slot : Nat) (andWait : Bool) (scope : Nat)
  /-- The completion of a barrier phase, with the wait's scope (08 R170); whether the blocked arrival of an ARW before it was not recorded. -/
  | phase (n : Nat) (scope : Nat) (unrecorded : Bool)
  /-- RTAKE of a stage ring (08 R175). -/
  | take
  /-- RACQ of a stage ring (08 R175). -/
  | acquire
  deriving DecidableEq, Repr

/-- A wait that a group is in. -/
inductive Wait where
  | none
  /-- A wait on the object at flat address `pa`: the result register, the stall count that runs from completion, whether the
  wait-for table was full (02 R49, 08 R189), and what is waited for. -/
  | object (kd pa st : Nat) (untracked : Bool) (what : Until)
  /-- A memory operation whose replies come from another chip (12 R270). -/
  | remote (op : Nat)
  /-- A translation held for a migrating page (10 R231); the instruction is issued again on release. -/
  | held (addr : Nat) (write : Bool)
  /-- TRAP at a ring that is full or disabled; the instruction is issued again when the ring has room (11 R259). -/
  | trapRoom
  /-- The call `seq` of TRAP (18 R463). -/
  | trapCall (seq : BitVec 16) (st : Nat)
  /-- An MCAS, an ALLOC or FREE in flight, by its number (08 R186, 11 R263). -/
  | locks (op st : Nat)
  /-- FENCER: the marker sets whose reports are awaited, by target chip and number (12 R277). -/
  | fencer (sets : List (Nat × Nat)) (st : Nat)
  /-- The matrix instruction that REPLAY re-executes (10 R235): the live slot of the instruction that the group stopped before, and the
  instruction's PCword with the overlay in the low byte. -/
  | replay (slot : Bool) (word : BitVec 22)
  deriving DecidableEq, Repr

/-- Whether a group is stopped, and how (10 R220, R226).
DEDUCED: log 31. -/
inductive Stop where
  | running
  /-- Stopped exactly before an instruction by a trap or a fault. -/
  | faulted
  /-- Stopped by the supervisor's STOP command. -/
  | commanded
  /-- Lost (02 R44): it has ended, and only what it issued still completes. -/
  | lost
  deriving DecidableEq, Repr

/-- A matrix instruction in flight (10 R233), with everything it read at issue. -/
structure MatrixOp where
  instr : Instr
  pcword : BitVec 22
  po : Nat
  /-- The partition whose matrix unit holds it. -/
  part : Nat
  /-- The k registers of the A and B descriptors, as 128-bit numbers. -/
  descA : Nat
  descB : Nat
  /-- The source tile as it stood at issue, by 64 × row + column, and its tag. -/
  source : List (Nat × Word)
  srcTag : BitVec 5
  qthr : Nat
  /-- The translations of its check phase: 64 KiB page of virtual address, flat address of the page's first byte. -/
  pages : List (Nat × Nat)
  /-- Global lines shackled so far, by flat address divided by 256, with their bytes as they stood then (07 R157). -/
  lines : List (Nat × List Byte) := []
  /-- Scratchpad sectors read so far, by flat address divided by 64, with their bytes as they stood then (18 R476). -/
  banks : List (Nat × List Byte) := []
  /-- The accesses made so far. -/
  seen : List Seen := []
  /-- Scratchpad bytes that an agent has written since issue (17 R423). -/
  dirty : List (Nat × Bool) := []
  /-- Output sectors written, by virtual address divided by 64, and scratchpad lines that another agent has marked since the operation wrote
  to them (07 R160). -/
  written : List (Nat × Bool) := []
  remarked : List Nat := []
  /-- Partition cycle at which the unit last completed a micro-tile. -/
  progress : Nat
  /-- The lowest column modulo 32 in which a NaN was produced by an invalid operation. -/
  nan : Option Nat := .none
  /-- Re-executed by REPLAY; the group waits for it (10 R235). -/
  replay : Bool := false
  deriving DecidableEq, Repr

/-- A geometric instruction in flight (06 R130): the instruction's fields, its operand block, and the lanes that the EPU holds.
DEDUCED: log 41. -/
structure GeoOp where
  opcode : Nat
  sos : Bool
  f32 : Bool
  /-- The destination line, the first line of the operand block and their number, and the line of a lane-register index. -/
  dest : Nat
  base : Nat
  count : Nat
  idxLine : Option Nat
  block : List (Lanes Word)
  index : Lanes Word
  /-- The stage codes of the lanes so far, written to GEOSTG when the instruction ends (06 R134). -/
  codes : BitVec 64
  /-- The fragment that issued it: its live slot, lanes and program counter at the instruction. -/
  slot : Bool
  mask : Mask
  pc : Pc
  /-- A later instruction of the fragment has issued (06 R140). -/
  later : Bool := false
  /-- Order of arrival at the EPU. -/
  stamp : Nat
  /-- The lanes not yet decided, and those of them that an EPU reset makes run again. -/
  open_ : Mask
  rerun : Mask := 0
  deriving DecidableEq, Repr

/-- A node entry that the walkers may hold (10 R217): the job, the level, the address bits that it translates, and its value. -/
structure NodeCached where
  job : Nat
  level : Nat
  high : Nat
  entry : Nat
  deriving DecidableEq, Repr

/-- A translation that a core's TLB or a lane's last-page register may hold (07 R155, 10 R217): the 64 KiB page of a job, its
physical page, write permission, dirty state and key. -/
structure Cached where
  core : Nat
  job : Nat
  page : Nat
  frame : Nat
  writable : Bool
  dirty : Bool
  key : BitVec 4
  deriving DecidableEq, Repr

/-- A placed group: its context image (04 R90, R91) and what the hardware holds about it.
DESIGN CHOICE: log 14. -/
structure Group where
  core : Nat
  frame : Nat
  job : Nat
  role : Role
  /-- The partition now holding the group, and whether it holds a resident slot (03 R61, R70). -/
  part : Nat
  resident : Bool := true
  age : Nat := 0
  lastSlot : Bool := false
  /-- The model's own count of the instructions issued. -/
  issues : Nat := 0
  /-- One more than the cycle in which each live slot's instruction was last found not ready at issue. -/
  skip0 : Nat := 0
  skip1 : Nat := 0
  -- the state block (04 R91)
  live0 : Entry := {}
  live1 : Entry := {}
  code : BitVec 64 := 0
  lbase : Nat := 0
  reslo : Nat := 0
  wdepth : Nat := 0
  sptr : Nat := 0
  mode : BitVec 8 := 0
  fexc : BitVec 8 := 0
  ctrCopy : BitVec 16 := 0
  ctrMatrix : BitVec 16 := 0
  ctrRemote : BitVec 16 := 0
  /-- The plane acknowledgement counts, whose sum CTRREMOTE is, by plane index (12 R272).
  DEDUCED: log 126. -/
  acks : List (Nat × Nat) := []
  ctrIo : BitVec 16 := 0
  mtmask : BitVec 16 := 0
  qthr : BitVec 8 := 0
  waitkind : BitVec 8 := 0
  geodone : BitVec 32 := 0
  geostg : BitVec 64 := 0
  geocnt : BitVec 32 := 0
  fnan : BitVec 32 := 0
  bphase : BitVec 32 := 0
  wgen : BitVec 32 := 0
  keymask : BitVec 16 := 0
  ztag : BitVec 64 := 0
  waitaddr : BitVec 64 := 0
  tickets : BitVec 32 := 0
  launchid : BitVec 32 := 0
  unitix : BitVec 16 := 0
  cluix : BitVec 16 := 0
  groupix : BitVec 8 := 0
  frec : Frec := {}
  -- the other areas of the image (04 R90)
  k : Vector Word 32 := Vector.replicate 32 0
  p : Vector Word 7 := Vector.replicate 7 0
  q : Word := 0
  dstack : List (Nat × Entry) := []
  wstack : List (Nat × BitVec 64) := []
  ltags : List (Nat × BitVec 8) := []
  lines : List (Nat × Lanes Word) := []
  tiles : List (Nat × Word) := []
  qhist : List (Nat × Byte) := []
  /-- A group access has lain in the group's spill region (04 R83). -/
  spillTouched : Bool := false
  /-- Bytes of the image's reserved areas, by image offset. -/
  rsv : List (Nat × Byte) := []
  /-- Poisoned lines of the image, by image offset divided by 128 (10 R229, 13 R306). -/
  imgPoison : List (Nat × Bool) := []
  -- the register caches, the scoreboard and issue (04 R75, 14 R317 to R320)
  /-- Lane lines not present in the register cache, by image position. -/
  absent : BitVec 256 := 0
  uAbsent : Bool := false
  pAbsent : Bool := false
  /-- Tiles not present in the accumulator store. -/
  zAbsent : BitVec 8 := 0
  hazards : List Hazard := []
  busy : List Reg := []
  readyAt : Nat := 0
  /-- The clock at which the group last became ready (03 R71), and the clock from which a group placed with a cluster may start (03 R59). -/
  readySince : Nat := 0
  startAt : Nat := 0
  /-- Count of memory operations issued, which stamps program order (09 R196). -/
  po : Nat := 0
  order : Order := {}
  /-- The last-page registers of the lanes (07 R155). -/
  lastPage : List (Nat × Cached) := []
  -- waits, stops and engine operations
  wait : Wait := .none
  waitSince : Nat := 0
  /-- The order in which waits began. -/
  waitStamp : Nat := 0
  stop : Stop := .running
  fails : List (Nat × Failure) := []
  /-- The overlay slot named by the group's hold (17 R432). -/
  hold : Option Nat := .none
  /-- The overlay that must be loaded before the group becomes ready (03 R62, 17 R432). -/
  awaitOverlay : Option (BitVec 8) := .none
  matrixOp : Option MatrixOp := .none
  geoOp : Option GeoOp := .none
  /-- Chips stored to since the group's last completed FENCER (12 R273). -/
  targets : List (Nat × Bool) := []
  /-- Number of the group's latest TRAP call (11 R258). -/
  trapSeq : BitVec 16 := 0
  /-- The lanes that have executed EXIT (02 R18). -/
  exited : Mask := 0
  /-- The last live lane has exited; the group ends when its operations complete (02 R18). -/
  ending : Bool := false
  /-- PCword of the EXIT that ended the last lane. -/
  exitPc : BitVec 22 := 0
  /-- The cancellation that reached the group stops it at its next boundary (02 R36). -/
  cancelled : Bool := false
  deriving DecidableEq, Repr

/-! ### Memory operations in flight (09 R192, R197) -/

/-- The form of a lane or uniform atomic (08 R182, R183): an AOP with its arithmetic form, or a compare-and-swap. -/
inductive AtomForm where
  | signed
  | unsigned
  | float
  deriving DecidableEq, Repr

/-- What a read-modify-write does to the value it finds. -/
inductive Rmw where
  | atom (aop : BitVec 3) (form : AtomForm) (b : BitVec 64) (lane : Nat)
  | cas (expected new : BitVec 64)
  deriving DecidableEq, Repr

/-- What one access does. A read delivers each address into a result slot. -/
inductive AccessKind where
  | read (cells : List (Nat × Nat))
  | write (cells : List Host.Cell)
  | rmw (addr size slot : Nat) (op : Rmw)
  deriving DecidableEq, Repr

/-- One access: indivisible, to one sector (09 R193). Its addresses are flat addresses of this module, or offsets at the chip named. -/
structure Access where
  chip : Option Nat := .none
  kind : AccessKind
  /-- The lanes that the access serves (12 R280). -/
  lanes : Mask := 0
  deriving DecidableEq, Repr

/-- Where the result bytes of a memory operation go. Lane l's byte j stands in result slot 16 l + j; a uniform operation uses
the slots of lane 0. -/
inductive Dest where
  | none
  /-- Logical lane lines, the bytes per lane, sign extension, and the lanes written. -/
  | lanes (size : Nat) (signed : Bool) (lines : List Nat) (active : Mask)
  /-- Uniform registers and the bytes read. -/
  | uniform (size : Nat) (ks : List Nat)
  deriving DecidableEq, Repr

/-- A load, store or atomic in flight: its group, its place in program order, the lanes of the fragment that issued it (joined
with those it fused with), and its accesses still to take effect. -/
structure MemOp where
  group : Nat
  owner : Mask
  po : Nat
  pcword : BitVec 22
  accs : List (Nat × Access)
  got : List (Nat × Byte) := []
  poisoned : Bool := false
  dest : Dest := .none
  acquire : Option (BitVec 3) := .none
  /-- The scope of a FENCE that completed while its loads were open: they acquire what later fences would have (09 R197 row 5). -/
  fence : Option (BitVec 3) := .none
  /-- The stores of later operations of its lanes that took effect before its loads (09 R197 row 2 at a narrow scope). -/
  passed : List Seen := []
  release : Option (BitVec 3) := .none
  /-- ST.OF: the store is an ordered flag (18 R458). -/
  flagged : Bool := false
  /-- Earlier stores of its group, those before this point of program order, take effect before it: the latest FENCER (09 R197 row 6). -/
  after : Nat := 0
  /-- The marker sets sent for it, by chip (12 R276, 18 R458). -/
  sets : List (Nat × Nat) := []
  /-- The moment before which its loads do not read: that of the latest change of a translation that it uses. -/
  since : Nat := 0
  /-- For an operation on another chip: the accesses sent whose replies are awaited, by request number (12 R270). -/
  sent : List (Nat × Access) := []
  /-- Error responses so far, by lane (12 R271). -/
  errs : List (Nat × Trap) := []
  /-- Scratchpad lines that the operation writes whole; their weight marks clear when it has taken effect (07 R160). -/
  whole : List Nat := []
  /-- The opcode with its set bit, as a ticket entry records it (12 R280). -/
  opc : Nat := 0
  /-- The atomic operation and scope of an access, likewise. -/
  aop : Nat := 0
  /-- The group's count of instructions before it, and the live slot that issued it (13 R307). -/
  issue : Nat := 0
  slot : Bool := false
  /-- The number of accesses that it makes. -/
  size : Nat := 0
  deriving DecidableEq, Repr

/-! ### Launches, units, partitions and cores -/

/-- A submission's counters (03 R53): virtual addresses in the job. -/
structure Counters where
  graph : Nat
  phase : Nat
  jobc : Nat
  priorph : Nat
  deriving DecidableEq, Repr

/-- A live launch: its record's fields (02 R25), its submission and its progress. -/
structure Launch where
  job : Nat
  flags : BitVec 32
  units : Nat
  perclu : Nat
  ncopy : Nat
  nmatrix : Nat
  nvector : Nat
  frame : Nat
  spad : Nat
  code : Nat
  entcopy : BitVec 32
  entmatrix : BitVec 32
  entvector : BitVec 32
  keymask : BitVec 16
  param : BitVec 64
  block : Nat
  deps : Nat
  ctrs : Counters
  /-- The hardware launch queue, and the order of admission. -/
  queue : Nat
  order : Nat
  /-- The launch whose group executed LAUNCH, with the unit's index in it; absent for a submitted launch. -/
  parent : Option (Nat × Nat) := .none
  /-- The key mask with which the device reaches the launch's graph, phase and job counters: its effective key mask (07 R505). -/
  gmask : BitVec 16 := 0
  wgen : BitVec 32 := 0
  /-- The weight slot whose REFS this launch counts in (13 R303). -/
  capture : Option Nat := .none
  held : Bool := true
  heldSince : Nat := 0
  age : Nat := 0
  placed : Nat := 0
  retired : Nat := 0
  cancelled : Bool := false
  memberLost : Bool := false
  /-- The units that issued the records in the launch's overflow ring, oldest first (02 R40). -/
  ring : List Nat := []
  /-- Units cancelled before they were placed. -/
  skipped : List Nat := []
  deriving DecidableEq, Repr

/-- A launch record waiting in a unit's pending-launch queue (02 R39, R40): the 64 bytes copied by LAUNCH and when it entered. -/
structure Pending where
  record : List Byte
  entered : Nat
  deriving DecidableEq, Repr

/-- A placed unit (02 R17): its core, scratchpad allocation, live groups, and the records its groups launched. -/
structure LUnit where
  launch : Nat
  ix : Nat
  core : Nat
  spadBase : Nat
  spadLen : Nat
  groups : Nat
  live : Nat
  pending : List Pending := []
  /-- A group of the co-scheduled set has been lost (02 R44 to R47). -/
  memberLost : Bool := false
  /-- A group of the unit itself has been lost (08 R177). -/
  groupLost : Bool := false
  retired : Bool := false
  deriving DecidableEq, Repr

/-- The matrix unit of a partition (03 R72, 10 R236). -/
inductive MuMode where
  | awake
  | idle
  /-- A wake-up has been requested, at a clock. -/
  | requested (stamp : Nat)
  /-- Leaving idle since a clock. -/
  | waking (since : Nat)
  /-- Being reset after a hang, since a clock. -/
  | resetting (since : Nat)
  deriving DecidableEq, Repr

/-- A partition: its rotation pointer (03 R66), its own cycle count, the next age stamp and its matrix unit. -/
structure Part where
  ptr : Nat := 0
  cycle : Nat := 0
  nextAge : Nat := 0
  mu : MuMode := .awake
  /-- Clock at which the matrix unit last executed an operation. -/
  muLast : Nat := 0
  /-- Cycle until which the vector pipes are taken by an FP64 form (16 R372). -/
  vecBusy : Nat := 0
  /-- The exact predicate unit is being reset (06 R140). -/
  epuReset : Bool := false
  /-- Whether each kind of work was executed since the last forecast (03 R74): matrix, vector. -/
  ranMatrix : Bool := false
  ranVector : Bool := false
  /-- For each role, by code, the group its selections last chose and how many times in succession (03 R67). -/
  chosen : List (Nat × Nat × Nat) := []
  deriving DecidableEq, Repr

/-- A load into an overlay slot in progress: by a placement for a launch, by OVLD of a group, or for a REPLAY (03 R62, 17 R434). -/
inductive Loader where
  | placement (launch : Nat)
  | group (key : Nat) (pcword : BitVec 22)
  | replay (key : Nat)
  deriving DecidableEq, Repr

/-- An overlay slot bound to an overlay of a job's code image, with its copy of the code (03 R62). -/
structure Slot where
  job : Nat
  code : BitVec 64
  ovl : BitVec 8
  addr : Nat
  size : Nat
  loading : Option Loader := .none
  bytes : List (Nat × Byte) := []
  /-- Sectors of 64 bytes of the code that are poisoned (13 R306, R307). -/
  poison : List Nat := []
  deriving DecidableEq, Repr

/-! ### Copy-engine operations (15 R364 to R367; 16 R385, R393, R394; 18 R449; 17 R434) -/

/-- What a copy-engine operation moves; addresses are virtual. -/
inductive CopyShape where
  | linear (dst src len : Nat)
  | rows (dst src rowLen count srcPitch dstPitch : Nat)
  /-- COPYR: the ring descriptor's scratchpad offset, the source and the length. -/
  | ring (desc src len : Nat)
  /-- GATHER and SCATTER: the two bases, the number of elements, the element size and the index array; or a refused operand. -/
  | gather (dst base count size idx : Nat) (bad : Bool)
  | scatter (base src count size idx : Nat) (bad : Bool)
  | fill (dst pattern len : Nat)
  /-- OVLD: the load of `size` bytes of code into an overlay slot. -/
  | overlay (slot src size : Nat)
  deriving DecidableEq, Repr

/-- A copy-engine operation in flight. -/
structure CopyOp where
  group : Nat
  core : Nat
  owner : Mask
  po : Nat
  pcword : BitVec 22
  shape : CopyShape
  /-- The ring slot that a COPYR has acquired, and when it stalled on a ring without a free slot. -/
  slot : Option Nat := .none
  stalled : Option Nat := .none
  /-- Source bytes read so far, by virtual address. -/
  buf : List (Nat × Byte) := []
  /-- Source sectors read from a key-1 page or a marked line, with the cause of a refusal (07 R160). -/
  hot : List (Nat × BitVec 4) := []
  /-- Destination sectors written, by virtual address divided by 64; sector accesses sent to another chip. -/
  done : List (Nat × Bool) := []
  sent : List Nat := []
  /-- Known fault tickets that its remote parts have met, by serial (15 R364). -/
  tickets : List Nat := []
  /-- The accesses made so far, and scratchpad lines that another agent has marked since the operation wrote to them (07 R160). -/
  seen : List Seen := []
  remarked : List Nat := []
  /-- What stood before the operation at its issue (09 R197 row 10). -/
  view : View := {}
  floor : Nat := 0
  failed : Option Trap := .none
  deriving DecidableEq, Repr

/-! ### Pages awaited by the device (10 R504) -/

/-- The operation that waits for a page: the admission of a submission queue's entry or of a unit's oldest pending record, with the
launch identifier it will have; the load of an overlay slot; an engine operation. -/
inductive Waiter where
  | admission (queue id : Nat)
  | child (unit id : Nat)
  | overlay (slot : Nat)
  | engine (op : Nat)
  deriving DecidableEq, Repr

/-- A service request: its ring's die and token, who waits, the page, the walk's fault, and whether it was answered with FAIL. -/
structure Service where
  die : Nat
  token : Nat
  waiter : Waiter
  page : Nat
  trap : Trap
  failed : Bool := false
  deriving DecidableEq, Repr

/-! ### The device's own accesses to completion counters (02 R30 to R32; 07 R505) -/

/-- What the device does to a completion counter on no group's behalf. -/
inductive CounterOp where
  /-- A member of a level (0 unit to 4 job) completes, with status bits; `launch` is the launch of a unit or launch counter, and `above`
  the counters of its graph. -/
  | down (level bits launch : Nat) (above : Counters)
  /-- Status bits are set. -/
  | status (bits : Nat)
  /-- A launch counter is written for a use that ends without admission, where the whole block of `span` bytes is reached. -/
  | unused (bits span : Nat)
  /-- A unit counter of a unit that is never placed: no member remains, and CANCELLED is set. -/
  | unplaced
  deriving DecidableEq, Repr

/-- An access of the device to the counter at a virtual address of a job. -/
structure DeviceAct where
  job : Nat
  mask : BitVec 16
  va : Nat
  op : CounterOp
  deriving DecidableEq, Repr

/-! ### Locks (08 R186, R187; 11 R263) -/

/-- What a group asks of the tumblers. -/
inductive LockOp where
  /-- MCAS: the entries' flat addresses, expected and new values, and the scope. -/
  | mcas (kd scope : Nat) (entries : List (Nat × Nat × Nat))
  /-- ALLOC: destination, descriptor's flat address, size. -/
  | alloc (kd desc size : Nat)
  /-- FREE: destination, descriptor's flat address, the value freed. -/
  | free (kd desc value : Nat)
  deriving DecidableEq, Repr

/-- An MCAS, ALLOC or FREE in flight; `slot` and `pc` are those of its issue, to which a fault returns.
DEDUCED: log 47. -/
structure Lock where
  group : Nat
  slot : Bool
  pc : Pc
  op : LockOp
  /-- The global addresses translated for it, and whether they must be translated again (08 R188). -/
  vas : List Nat := []
  restart : Bool := false
  deriving DecidableEq, Repr

/-! ### The wait-for walk (08 R190) -/

/-- A record of the wait-for table (08 R189): its group by key and by the record's own fields, the object's flat and virtual address, what
is waited for, the phase of a barrier's wait, and WAITKIND. -/
structure Recorded where
  group : Nat
  launchid : Nat
  unitix : Nat
  groupix : Nat
  pa : Nat
  va : Nat
  what : Until
  phase : Nat
  kind : Nat
  deriving DecidableEq, Repr

/-! ### I/O (11) -/

/-- A DBELL whose mark is in flight: its group, the program order stamp and the fragment's lanes, the queue and the entry. -/
structure Bell where
  group : Nat
  po : Nat
  owner : Mask
  queue : Nat
  index : Nat
  deriving DecidableEq, Repr

/-- An invalidation in progress (10 R218): its kind, job, first address and size exponent, the functions whose completion is awaited
(port, requester, PASID) and when it began. -/
structure Invalidation where
  kind : Nat
  job : Nat
  va : Nat
  log : Nat
  endpt : Bool
  awaiting : List (Nat × Nat × Nat) := []
  since : Nat := 0
  deriving DecidableEq, Repr

/-- A migration in progress (10 R231): the entry's address, its old and new values, whether it is an eviction, whether the drain
handshake is done. -/
structure Migration where
  pte : Nat
  old : Nat
  new : Nat
  level : Nat
  drained : Bool := false
  deriving DecidableEq, Repr

/-- An external arrival that has been accepted: its vector, and the job and address of the object bound to it (11 R247). -/
structure Arrival where
  vector : Nat
  job : Nat
  obj : Nat
  /-- Its place in the order in which arrivals reached the root complex. -/
  seq : Nat := 0
  deriving DecidableEq, Repr

/-- What a request at a root port is: a translation request, an untranslated memory request, one whose address an earlier translation gave, a
peer's access through BAR2 to a physical address, or an accepted write to the arrival window or a message register (11 R247, R249, R252, R253). -/
inductive PortKind where
  | translation
  | memory
  | translated
  | inbound
  | arrival (a : Arrival)
  deriving DecidableEq, Repr

/-- The registers of a root port that harts reach (11 R240): the bus numbers below it, and its ACS control: bit 0 Source Validation, bit 1
Translation Blocking (11 R238).
PRESUMED: log 151. -/
structure PortRegs where
  secondary : BitVec 8 := 0
  subordinate : BitVec 8 := 0
  acs : BitVec 2 := 0
  deriving DecidableEq, Repr

/-- A register of a root port: one of `PortRegs`, its AER log, or its DPC status. -/
inductive PortReg where
  | secondary
  | subordinate
  | acs
  | aer
  | dpc
  deriving DecidableEq, Repr

/-- A request at a root port, and what is still to be done of it. -/
structure EndpointReq where
  port : Nat
  rid : Nat
  pasid : Option Nat
  va : Nat
  /-- For a translation request, No Write; for a memory request, read. -/
  readOnly : Bool
  kind : PortKind := .memory
  /-- A memory request reads `len` bytes or writes `data`. -/
  len : Nat := 0
  data : List Byte := []
  /-- The Relaxed Ordering attribute (09 R208), the Execute and Privileged Mode requests, and the need of a feature that the root complex
  does not support (11 R238). -/
  relaxed : Bool := false
  execute : Bool := false
  privileged : Bool := false
  unsupported : Bool := false
  /-- The request has been checked; its parts still to be accessed, each by offset and length within one sector, and the bytes read. -/
  checked : Bool := false
  todo : List (Nat × Nat) := []
  got : List (Nat × Byte) := []
  deriving DecidableEq, Repr

/-! ### The fabric (12) -/

/-- A request of one chip to another (12 R268): the requester's identity, the names by which it knows the access, the link sequence
number, the plane, and the access with offsets in the owner's address space as addresses. -/
structure Request where
  src : Nat
  dst : Nat
  core : Nat
  frame : Nat
  job : Nat
  role : Role
  keymask : BitVec 16
  scope : Nat
  pcword : BitVec 22
  access : AccessKind
  /-- The marker set a flagged store waits for (12 R276). -/
  flagged : Option Nat := .none
  plane : Nat
  seq : Nat
  op : Nat
  acc : Nat
  deriving DecidableEq, Repr

/-- What a reply carries (12 R271, R272, R278). -/
inductive Reply where
  /-- Result slots and bytes; whether the data is poisoned; whether it comes from a key-1 page. -/
  | data (got : List (Nat × Byte)) (poisoned weight : Bool)
  | ack
  | error (kind : BitVec 8) (cause : BitVec 4)
  | ticket (owner number hint page : Nat)
  deriving DecidableEq, Repr

/-- A request that waits in the owner's replay queue, with the count of markers that had arrived on its plane before it (12 R275, R278). -/
structure Waiting where
  req : Request
  seen : Nat
  deriving DecidableEq, Repr

/-- An access that this chip refused with a ticket and that has not been replayed (12 R275, R276): its source, its group's core and frame and
its names there, the count of markers before it on its plane, and the ticket.
DEDUCED: log 127. -/
structure Refused where
  src : Nat
  op : Nat
  acc : Nat
  core : Nat
  frame : Nat
  seen : Nat
  number : Nat
  deriving DecidableEq, Repr

/-- The copies so far of the replay notice of a ticket that no access of this chip has met yet (12 R282). -/
structure Notice where
  owner : Nat
  number : Nat
  planes : List Nat
  status : Nat
  kind : BitVec 8
  cause : BitVec 4
  deriving DecidableEq, Repr

/-- A ticket open at this chip as owner (12 R278): requester chip, job, page, the walk's fault, and whether a migration opened it. -/
structure OwnerTicket where
  chip : Nat
  job : Nat
  page : Nat
  trap : Trap
  migrating : Bool
  deriving DecidableEq, Repr

/-- A ticket known to this chip as requester: owner, number, page and hint; the planes on which its replay notice has arrived, with
the notice's status, kind and cause; whether its chain is being replayed. -/
structure KnownTicket where
  /-- The number that this chip tells it by: an owner may give a closed ticket's number to another. -/
  serial : Nat := 0
  owner : Nat
  number : Nat
  job : Nat
  page : Nat
  hint : Nat
  notices : List Nat := []
  status : Nat := 0
  kind : BitVec 8 := 0
  cause : BitVec 4 := 0
  deriving DecidableEq, Repr

/-- An entry of a core's requester ticket table (12 R280): its state 1 waiting or 2 replaying, the access it holds, the ticket, and its
position in the ticket's chain at the core. -/
structure TicketEntry where
  state : Nat
  op : Nat
  acc : Nat
  access : Access
  owner : Nat
  number : Nat
  /-- The known ticket that it waits for. -/
  serial : Nat := 0
  hint : Nat
  order : Nat
  deriving DecidableEq, Repr

/-- A ticket response that waits for a free table entry. -/
structure HeldTicket where
  core : Nat
  op : Nat
  acc : Nat
  owner : Nat
  number : Nat
  serial : Nat := 0
  hint : Nat
  deriving DecidableEq, Repr

/-! ### Weights, boot and spares (13) -/

/-- The contents of the weight store: the manifest's fields and the image bytes that are not zero, from offset 0 of the image. -/
structure StoreImage where
  seqno : Nat
  length : Nat
  digests : List (BitVec 256)
  /-- The signature of the manifest and its digest. -/
  signature : List Byte
  digest : BitVec 256
  bytes : List Host.Cell
  deriving DecidableEq, Repr

/-- An installation in progress: the staging address and the manifest's fields. -/
structure Install where
  base : Nat
  seqno : Nat
  length : Nat
  digests : List (BitVec 256)
  signature : List Byte
  digest : BitVec 256
  deriving DecidableEq, Repr

/-- A module of the pod as election sees it: its serial and whether its store holds a valid image. -/
structure Member where
  serial : Nat
  candidate : Bool
  deriving DecidableEq, Repr

/-- A chunk that this module keeps: its index and digest, its length, and the physical address of the frames that the firmware reserved for it.
DESIGN CHOICE: log 90. -/
structure Chunk where
  index : Nat
  digest : BitVec 256
  length : Nat := 0
  frame : Nat := 0
  deriving DecidableEq, Repr

/-- The state of pod boot (13 R297 to R300). -/
structure Pod where
  /-- The chain in ascending serial, the leader first. -/
  chain : List Member := []
  /-- The digests of the leader's manifest, by chunk. -/
  manifest : List (Nat × BitVec 256) := []
  /-- The chunks that the leader's plan assigns to this module. -/
  plan : List Nat := []
  /-- The chunks that some later member keeps. -/
  relay : List Nat := []
  kept : List Chunk := []
  /-- Chunks received that this module does not keep and relays: their index, length and bytes other than zero. -/
  passed : List (Nat × Nat × List Host.Cell) := []
  /-- The manifest digest of the leader's image (13 R304). -/
  mdigest : BitVec 256 := 0
  /-- For a leader: the chunks that each member reports verified, by serial, and those its plan assigns. -/
  reports : List (Nat × List Nat) := []
  plans : List (Nat × List Nat) := []
  /-- The clock when the last packet came from the predecessor, and when this leader last sent one down the chain. -/
  heard : Nat := 0
  sent : Nat := 0
  deriving DecidableEq, Repr

/-- A compute die's spares (13 R307, R308): cores used of four, cores being drained, and the state of its L2 slices. -/
structure Spares where
  used : Nat := 0
  /-- The slice that the spare has taken over or is taking over, and whether the takeover is still in progress. -/
  slice : Option Nat := .none
  takeover : Bool := false
  /-- Slices that give no further service. -/
  deadSlices : List Nat := []
  deriving DecidableEq, Repr

/-! ### What the module sends out -/

/-- A packet, transaction or message that leaves the module.
DESIGN CHOICE: log 109. -/
inductive Output where
  /-- A posted 32-bit tail write (11 R244). -/
  | tailWrite (bus value : Nat)
  /-- A page request group response (11 R250). -/
  | prgResponse (port rid prgi code : Nat) (pasid : Option Nat)
  /-- An answer to an ATS request: physical page, size exponent, read and write permission. -/
  | atsAnswer (port rid : Nat) (pasid : Option Nat) (va pa log : Nat) (r w : Bool)
  /-- Completion with data, and an Unsupported Request completion. -/
  | completion (port rid : Nat) (data : List Byte)
  | unsupported (port rid : Nat)
  | atsInvalidate (port rid pasid va log : Nat)
  | request (r : Request)
  | reply (dst plane op acc : Nat) (body : Reply)
  | marker (dst plane n : Nat) (report : Bool)
  | markerReport (dst n : Nat)
  | replayNotice (dst plane owner number status : Nat) (kind : BitVec 8) (cause : BitVec 4)
  /-- A load's value, and the access-fault exception of a hart (11 R257). -/
  | hartData (data : List Byte)
  | hartFault (write : Bool)
  /-- The harts that serve a device-written ring are signalled that a record stands in it (10 R225, 11 R250, R258). -/
  | signal (ring : Nat)
  /-- A hart's access that leaves through a root port (11 R240). -/
  | bar (port bus : Nat) (write : Bool) (len : Nat) (data : List Byte)
  | deadlock (records : List (List Byte))
  /-- A chunk sent to a member: its length and its bytes other than zero. -/
  | chunk (serial index length : Nat) (cells : List Host.Cell)
  | plan (serial : Nat) (keep relay : List Nat)
  | chunkRequest (serial index : Nat)
  | chunkReport (serial : Nat) (held : List Nat)
  | keepalive (serial : Nat)
  | chipNumber (serial chip : Nat)
  /-- A packet that takes its plane's escape channel (12 R288). -/
  | escaped (o : Output)
  /-- An SPDM answer: over the DOE mailbox of a root port, or over the management port (13 R305). -/
  | spdmAnswer (port : Option Nat) (log : List (Nat × BitVec 256)) (m : BitVec 256) (signature : Nat)
  deriving DecidableEq, Repr

/-! ### Harts (11 R256) -/

/-- The mode of a hart. -/
inductive HartMode where
  | m
  | hs
  | u
  | vs
  | vu
  deriving DecidableEq, Repr

/-- The key mask CSRs of a hart: MKEYS and MGKEYS.
DEDUCED: log 100. -/
structure HartKeys where
  mkeys : BitVec 16 := 0x0001
  mgkeys : BitVec 16 := 0x0001
  deriving DecidableEq, Repr

/-- An access of a hart that waits for a shackle, a slice takeover or a channel, or for the hart's earlier stores: its hart, the mode and
key mask with which it was made, a store's data or a load's length; for a notify store its arrival, for a write of TCOMPL its bytes, and for
either whether the hart's profile orders its earlier stores before it. -/
structure HartReq where
  hart : Nat
  mode : HartMode
  mask : BitVec 16
  addr : Nat
  write : Bool
  len : Nat
  data : List Byte
  arrival : Option Arrival := .none
  /-- The bytes of a TCOMPL write. -/
  call : Option (List Byte) := .none
  ordered : Bool := false
  deriving DecidableEq, Repr

/-! ### Inputs -/

/-- What the outside world or an asynchronous agent supplies to a device step.
DESIGN CHOICE: log 1. -/
inductive Input where
  | none
  /-- The step names one thing by number: a partition, a queue, an operation, a group key, a die. -/
  | one (n : Nat)
  /-- The step names two things by number: an operation and one of its accesses, a group and a lane. -/
  | two (a b : Nat)
  /-- The value that a hart writes to a command register. -/
  | word (x : Nat)
  /-- The bytes that a hart writes, or an image. -/
  | bytes (b : List Byte)
  /-- A hart's write to a control register: the hart and its mode, block (0 scheduler, 1 translation, 2 I/O, 3 fabric, 4 memory and
  bring-up, 5 the hart's own CSRs), offset, size, value. -/
  | register (hart : Nat) (mode : HartMode) (block off size value : Nat)
  /-- A remote request, and replies to this module's requests. -/
  | request (r : Request)
  | reply (op acc : Nat) (body : Reply)
  | ticket (op acc owner number hint page : Nat)
  | notice (owner number plane status : Nat) (kind : BitVec 8) (cause : BitVec 4)
  | marker (src plane n : Nat) (report : Bool)
  /-- The queue of a plane port: its plane, the link cycles that its head has waited, and the destination chips of its packets, head first;
  and a packet to a chip that leaves the escape channel of a plane. -/
  | portQueue (plane waited : Nat) (dsts : List Nat)
  | escapeLeft (plane dst : Nat)
  /-- A write to the arrival window: port, requester, bus address, size, and the Relaxed Ordering attribute. -/
  | arrive (port rid bus size : Nat) (relaxed : Bool)
  /-- A store to a hart physical address of the notify window, by a hart or, with none, by an endpoint; `ordered` where the hart's profile
  orders its earlier stores before it (09 R209). -/
  | notify (hart : Option Nat) (addr : Nat) (ordered : Bool)
  /-- A hart's write of TCOMPL, with its 16 bytes; `ordered` as for a notify store. -/
  | tcompl (hart : Nat) (ordered : Bool) (b : List Byte)
  /-- A peer's write to BAR0 of a port: offset, size and data. -/
  | mailbox (port off size data : Nat) (relaxed : Bool)
  /-- A peer's read of BAR0 of a port. -/
  | mailboxRead (port off size : Nat)
  /-- A peer's access through BAR2 of a port. -/
  | inbound (port off : Nat) (write : Bool) (len : Nat) (data : List Byte) (relaxed : Bool)
  /-- A hart's access to a bus address behind a root port, configuration space included, and the endpoint's answer to a load (11 R240). -/
  | bar (hart : Nat) (mode : HartMode) (port bus : Nat) (write : Bool) (len : Nat) (data : List Byte)
  | barReply (port : Nat) (data : List Byte)
  /-- A hart's access to a register of a root port itself (11 R240). -/
  | portReg (hart : Nat) (mode : HartMode) (port : Nat) (reg : PortReg) (write : Bool) (value : Nat)
  /-- A write of an HDM decoder by a hart: its number, base, size and ways; a size of 0 disables it (11 R239). -/
  | hdm (hart : Nat) (mode : HartMode) (decoder base size ways : Nat)
  | endpoint (r : EndpointReq)
  /-- A page request: port, requester, PASID, address, read, write, last, group index, and whether it asks for Execute or Privileged Mode. -/
  | pageRequest (port rid : Nat) (pasid : Option Nat) (va : Nat) (r w last : Bool) (prgi : Nat) (special : Bool)
  | completion (port rid : Nat)
  /-- The modules that this one can reach. -/
  | members (ms : List Member)
  /-- The leader's distribution plan as this module receives it: the digests of its manifest and the manifest's own, what this module keeps and
  what it relays. -/
  | plan (leader : Nat) (manifest : List (Nat × BitVec 256)) (digest : BitVec 256) (keep relay : List Nat)
  /-- A packet of another leader, with the members of its chain. -/
  | leader (serial : Nat) (followers : List Member)
  /-- A chunk and its bytes other than zero. -/
  | chunk (index length : Nat) (cells : List Host.Cell)
  /-- A member's report of the chunks it holds. -/
  | held (serial : Nat) (chunks : List Nat)
  /-- A soft error: the die, and the memory sector or image line (group, offset) that it strikes. -/
  | sector (die flat : Nat)
  | imageLine (die group off : Nat)
  /-- A soft error in an instruction store: the die, and the overlay slot and the sector of it that it strikes. -/
  | storeSector (die slot sector : Nat)
  /-- What a drained core or slice could not give up: its number, the memory sectors, the image lines by group and offset, and the sectors of the
  instruction store by overlay slot. -/
  | failure (unit : Nat) (sectors : List Nat) (lines : List (Nat × Nat)) (code : List (Nat × Nat))
  /-- A hart's access to module memory: hart and mode, physical address, data. -/
  | hart (hart : Nat) (mode : HartMode) (addr : Nat) (write : Bool) (len : Nat) (data : List Byte)
  /-- A hart's access to a context image: core, frame, offset. -/
  | image (hart : Nat) (mode : HartMode) (core frame off : Nat) (write : Bool) (len : Nat) (data : List Byte)
  /-- A scrub pass: the sectors found correctable, and those found not. -/
  | scrub (corrected poisoned : List Nat)
  deriving DecidableEq, Repr

/-! ### The machine -/

/-- The issue cursor: the group and the live slot whose next instruction issues, with its partition and age stamp as they stood
before the selection, which return when the instruction turns out not to be ready. -/
structure Issue where
  key : Nat
  slot : Bool
  before : Part := {}
  age : Nat := 0
  deriving DecidableEq, Repr

/-- The state of the module. -/
structure State where
  -- the model's own fields
  /-- Device steps still to come before the machine chooses its next step itself, each with its input. -/
  agenda : List (Instr × Input) := []
  /-- The input of the device step in progress. -/
  input : Input := .none
  /-- Counts the points at which a free value or a free choice was taken. -/
  fresh : Nat := 0
  /-- The group at issue. -/
  issue : Option Issue := .none
  /-- The largest cycle count of any partition. -/
  clock : Nat := 0
  /-- The clock at which each periodic step last ran: 0 the wait-for walk, 1 the activity forecast, 2 + d the placer of die d. -/
  timers : List (Nat × Nat) := []
  /-- The next identifier of an operation, a launch or a request. -/
  nextId : Nat := 1
  -- memory
  /-- Physical memory and the scratchpads: bytes other than zero, by flat address (Ops.lean, `paSpad`, `paDie`). -/
  mem : List Host.Cell := []
  /-- The number of the step in progress, and the stores so far, newest first (09 R202, R203). -/
  tick : Nat := 0
  hist : List Moment := []
  /-- The moment before which no load reads: the latest move of memory contents by the device. -/
  base : Nat := 0
  msgs : List Message := []
  /-- Poisoned 64-byte sectors, by flat address divided by 64 (10 R228). -/
  poison : List (Nat × Bool) := []
  /-- Weight marks of scratchpad lines, by flat address divided by 256 (07 R160). -/
  marks : List (Nat × Bool) := []
  /-- For each scratchpad line, the moment at which its weight mark was last cleared (07 R160). -/
  cleared : List (Nat × Nat) := []
  -- work
  groups : List (Nat × Group) := []
  units : List (Nat × LUnit) := []
  launches : List (Nat × Launch) := []
  parts : List (Nat × Part) := []
  slots : List (Nat × Slot) := []
  /-- The memory operations in flight, any number of them.
  DESIGN CHOICE: log 130. -/
  ops : List (Nat × MemOp) := []
  -- control registers and rings
  /-- Control register bytes that differ from their reset values, by block and offset. -/
  ctl : List (Nat × Byte) := []
  /-- Records waiting for a device-written ring, oldest first, and the ring's PHASE bit (10 R225). -/
  rings : List (Nat × List (List Byte)) := []
  ringPhase : List (Nat × Bool) := []
  /-- Translations that the cores may hold until they are invalidated (10 R217). -/
  tlb : List Cached := []
  /-- Node entries that the walkers may hold until they are invalidated. -/
  nodes : List NodeCached := []
  /-- The HDM decoders: number, base, size and ways of interleave (11 R239). -/
  hdm : List (Nat × Nat × Nat × Nat) := []
  /-- The key mask CSRs of each hart. -/
  harts : List (Nat × HartKeys) := []
  -- pages awaited, locks, the wait-for walk
  copies : List (Nat × CopyOp) := []
  services : List (Nat × Service) := []
  /-- The device's accesses to counters that wait for a migrating page, a slice takeover or a shackle, oldest first. -/
  devq : List (Nat × DeviceAct) := []
  locks : List (Nat × Lock) := []
  /-- The waits that met the conditions of a cycle at the last walk, each with the live groups that could then act on its object
  (08 R190). -/
  walked : List (Recorded × List Nat) := []
  /-- The barrier objects and stage rings in use, by flat address; true for a ring (08 R165, R173).
  DEDUCED: log 28. -/
  objs : List (Nat × Bool) := []
  /-- Objects changed since the last walk. -/
  touched : List Nat := []
  /-- Objects whose WAITERS, at an address and of a width, are to be written once no operation holds their line shackled (07 R157). -/
  waiters : List (Nat × Nat × Nat) := []
  /-- Levels that have completed and whose counters may still be named by CANCEL (02 R35): level, job, address, generation. -/
  finished : List (Nat × Nat × Nat × Nat) := []
  /-- Levels that have been cancelled (02 R36), likewise. -/
  cancels : List (Nat × Nat × Nat × Nat) := []
  /-- Cores whose copy engines worked since the last forecast (03 R74). -/
  ranCopy : List (Nat × Bool) := []
  /-- For each die, the cycles at which matrix units began to leave idle (03 R72). -/
  wakes : List (Nat × List Nat) := []
  -- I/O
  bells : List (Nat × Bell) := []
  /-- Arrivals that wait for their objects' translation, oldest first (11 R247). -/
  arrivals : List Arrival := []
  /-- The command of ARRCMD that waits for a migrating page (11 R246). -/
  arrcmd : Option Nat := .none
  /-- Ports contained by DPC, and ports whose link is up. -/
  contained : List (Nat × Bool) := []
  links : List (Nat × Bool) := []
  /-- The root ports' own registers (11 R240). -/
  portRegs : List (Nat × PortRegs) := []
  /-- Uncorrectable errors and refused requests logged by each port (11 R238). -/
  aer : List (Nat × Nat) := []
  mailbox : List (Nat × Word) := []
  invalidation : Option Invalidation := .none
  migration : Option Migration := .none
  /-- Requests at the root ports, oldest first. -/
  endpoints : List EndpointReq := []
  /-- Accesses of harts that wait, oldest first (09 R209). -/
  hartq : List HartReq := []
  -- the fabric: as requester
  /-- Requests sent and not yet answered, oldest first: the retransmission buffers (12 R286). -/
  flight : List Request := []
  /-- Next link sequence number, and last marker set number, per destination chip. -/
  linkSeq : List (Nat × Nat) := []
  mseq : List (Nat × Nat) := []
  known : List KnownTicket := []
  /-- Requester ticket tables, by 32 × core + entry. -/
  rtkt : List (Nat × TicketEntry) := []
  heldTickets : List HeldTicket := []
  /-- The plane that now carries each index, where a change of PLANEMAP has not taken effect yet. -/
  planeNow : List (Nat × Nat) := []
  /-- Packets in the escape channel of a plane to a chip (256 × plane + chip): while there are any, the later ones follow (12 R288). -/
  escape : List (Nat × Nat) := []
  /-- Replay notices of tickets that no access of this chip has met yet. -/
  early : List Notice := []
  -- the fabric: as owner
  tickets : List (Nat × OwnerTicket) := []
  /-- Requests that wait in the replay queue because every ticket is open (12 R278). -/
  waiting : List Waiting := []
  refused : List Refused := []
  /-- Requests already performed, by source and link sequence number, with their replies (12 R286). -/
  performed : List (Nat × Nat × Reply) := []
  /-- Markers received, by 8 × source + plane (12 R275). -/
  mcnt : List (Nat × Nat) := []
  flagged : List Request := []
  /-- Marker sets of FENCER that await a report, by source and number. -/
  reports : List (Nat × Nat) := []
  -- weights, boot, spares
  /-- The firmware image that the module holds (13 R304). -/
  firmware : Option (List Byte) := .none
  weights : Option StoreImage := .none
  lastSeqno : Nat := 0
  install : Option Install := .none
  /-- The measurement log and its running value (13 R304). -/
  mlog : List (Nat × BitVec 256) := []
  m : BitVec 256 := 0
  pod : Pod := {}
  spares : List (Nat × Spares) := []
  /-- Cores being replaced by a spare, and cores retired for want of one. -/
  draining : List (Nat × Bool) := []
  retiredCores : List (Nat × Bool) := []
  /-- What the module has sent out, oldest first. -/
  out : List Output := []
  deriving DecidableEq, Repr

/-- The machine right after reset.
DESIGN CHOICE: log 3. DESIGN CHOICE: log 5. -/
def State.reset : State := {}

end Sys2Proof.Machine
end

