-- ==== Sys2Proof/Machine/Ops.lean ====
section
/-! DEFINITION. The named operations over memory, registers, groups and reports; taking an exception (10 R220, R221) and the
returns from one (10 R226). -/

namespace Sys2Proof.Machine

/-! ### Memory bytes -/

/-- The flat address of a byte of a core's scratchpad: above the 52-bit physical space (07 R142, R150). Each allocation of a core
takes a 2 MiB range of its own, so that the total size alone decides what fits (03 R60).
DESIGN CHOICE: log 12. -/
def paSpad (core off : Nat) : Nat := 2 ^ 52 + core * 2 ^ 29 + off

/-- The flat address of a byte of a die's scratchpad (07 R149). -/
def paDie (die off : Nat) : Nat := 2 ^ 53 + die * 2 ^ 25 + off

/-- One byte of memory. A byte that nothing has written reads as zero.
DESIGN CHOICE: log 2. -/
def memByte (m : List Host.Cell) (a : Nat) : Byte := Assoc.get 0 m a

/-- Memory with one byte stored. -/
def memSet (m : List Host.Cell) (a : Nat) (b : Byte) : List Host.Cell := Assoc.set 0 m a b

/-- Memory with a sequence of cells stored, in order. -/
def memStore (m : List Host.Cell) : List Host.Cell → List Host.Cell
  | [] => m
  | (a, b) :: t => memStore (memSet m a b) t

/-- The canonical form of memory: addresses strictly rise and no listed byte is zero. -/
def Memory.wf (m : List Host.Cell) : Bool := Assoc.wf 0 m

/-- The `n` bytes from an address. -/
def memBytes (m : List Host.Cell) (a n : Nat) : List Byte := (List.range n).map (fun i => memByte m (a + i))

/-- The little-endian number of the `n` bytes from an address. -/
def memNat (m : List Host.Cell) (a n : Nat) : Nat := leNat (memBytes m a n)

/-- The addresses of `n` bytes. -/
def addrsFrom (a n : Nat) : List Nat := (List.range n).map (fun i => a + i)

/-- The cells of the `n` low bytes of a number from an address. -/
def cellsOf (a n x : Nat) : List Host.Cell := (leBytes n x).mapIdx (fun i b => (a + i, b))

/-- The state at the start of a step. -/
def State.ticked (s : State) : State := { s with tick := s.tick + 1 }

/-- One byte read by the device or an agent. -/
def State.byte (s : State) (a : Nat) : Byte := memByte s.mem a

/-- A little-endian number read from memory. -/
def State.nat (s : State) (a n : Nat) : Nat := memNat s.mem a n

/-- Whether a physical address lies in HBM4E (07 R150). -/
def inHbm (pa : Nat) : Bool := decide (pa < 0x8000000000)

/-- The home die of a physical address (07 R151). -/
def homeDie (pa : Nat) : Nat :=
  if inHbm pa then pa / 2 ^ 38 % 2 else (pa / 2 ^ 8 % 2 + pa / 2 ^ 16 % 2 + pa / 2 ^ 24 % 2) % 2

/-- The logical slice of a physical address on its home die. -/
def homeSlice (pa : Nat) : Nat := pa / 256 % 47

/-- Whether an address is homed to a slice that gives no further service (13 R308).
DEDUCED: log 98. -/
def State.deadAt (s : State) (a : Nat) : Bool :=
  decide (a < 2 ^ 52) && s.spares.any (fun x => decide (x.1 = homeDie a) && x.2.deadSlices.contains (homeSlice a))

/-- Whether an address is homed to a slice that the spare is taking over: accesses to it wait in the replay queue (13 R308).
DEDUCED: log 108. -/
def State.slicePaused (s : State) (a : Nat) : Bool :=
  decide (a < 2 ^ 52) && s.spares.any (fun x => x.2.takeover && decide (x.1 = homeDie a) && decide (x.2.slice = some (homeSlice a)))

/-- The stack and the channel of a physical address of HBM4E (07 R151). -/
def homeChannel (pa : Nat) : Nat × Nat :=
  let o := bitsOf pa 0 38
  let c := Nat.xor (Nat.xor (bitsOf o 8 7) (bitsOf o 15 7)) (bitsOf o 22 7)
  (4 * bitsOf pa 38 1 + bitsOf c 5 2, bitsOf c 0 5)

/-- Whether a 64-byte sector is poisoned (10 R228, 13 R308). -/
def State.poisoned (s : State) (a : Nat) : Bool := Assoc.get false s.poison (a / 64) || s.deadAt a

/-- The sectors whose 64 bytes a list of cells overwrites whole; a single access touches one sector. -/
def wholeSectors (cells : List Host.Cell) : List Nat :=
  match cells with
  | [] => []
  | (a, _) :: _ =>
    if (List.range 64).all (fun i => cells.any (fun c => decide (c.1 = a / 64 * 64 + i))) then [a / 64] else []

/-- The 256-byte lines a list of cells overwrites whole. -/
def wholeLines (cells : List Host.Cell) : List Nat :=
  ((cells.map (fun c => c.1 / 256)).eraseDups).filter (fun ln =>
    (List.range 256).all (fun i => cells.any (fun c => decide (c.1 = ln * 256 + i))))

/-- Stores the cells of one access. An access that overwrites a whole sector clears its poison (10 R228). -/
def State.store (s : State) (cells : List Host.Cell) (rmw : Bool := false) : State :=
  { s with
    mem := memStore s.mem cells
    hist := { time := s.tick, old := cells.map (fun c => (c.1, memByte s.mem c.1)), rmw := rmw } :: s.hist
    poison := (wholeSectors cells).foldl (fun p k => Assoc.set false p k false) s.poison }

/-- Stores the `n` low bytes of a number. -/
def State.storeNat (s : State) (a n x : Nat) (rmw : Bool := false) : State := s.store (cellsOf a n x) rmw

/-- Clears the weight marks of lines written whole (07 R160); the loads of vector-role groups that are checked from now on read what stands
there now. -/
def State.clearMarks (s : State) (lines : List Nat) : State :=
  { s with
    marks := lines.foldl (fun m k => Assoc.set false m k false) s.marks
    cleared := lines.foldl (fun m k => if Assoc.get false s.marks k then Assoc.set 0 m k s.tick else m) s.cleared }

/-! ### Control registers -/

/-- The control register blocks. -/
inductive Block where
  | sched
  | trans
  | io
  | fabric
  | memctl
  deriving DecidableEq, Repr

/-- The place of a block's byte in the control register table. -/
def Block.at : Block → Nat → Nat
  | .sched, o => o
  | .trans, o => 0x1000000 + o
  | .io, o => 0x2000000 + o
  | .fabric, o => 0x3000000 + o
  | .memctl, o => 0x4000000 + o

/-- The reset values of the control registers whose reset value is not zero: place, size, value.
DESIGN CHOICE: log 13. -/
def ctlResets : List (Nat × Nat × Nat) :=
  [ (Block.sched.at 0x0000, 4, 0x20A),          -- SCHEDCFG: AGE 0xA, SWAPIDLE 0x20 (03 R63)
    (Block.io.at 0x001C, 4, 0x2710),            -- IVTIMEOUT (11 R241)
    (Block.io.at 0x030A, 1, 0x14), (Block.io.at 0x032A, 1, 0x14),     -- NTBLOG2(p)
    (Block.io.at 0x034A, 1, 0x14), (Block.io.at 0x036A, 1, 0x14),
    (Block.io.at 0x038A, 1, 0x14), (Block.io.at 0x03AA, 1, 0x14),
    (Block.io.at 0x03CA, 1, 0x14), (Block.io.at 0x03EA, 1, 0x14),
    (Block.fabric.at 0x0004, 4, 0x00FAC688),    -- PLANEMAP (12 R266)
    (Block.fabric.at 0x0008, 4, 0xFF),          -- PLANESTAT
    (Block.fabric.at 0x000C, 4, 0x10000),       -- ESCTIMER
    (Block.memctl.at 0x0400, 4, 0x200),         -- MUCAP(0), MUCAP(1) (13 R290)
    (Block.memctl.at 0x0404, 4, 0x200) ]

/-- The reset value of a control register byte. -/
def ctlResetByte (k : Nat) : Byte :=
  match ctlResets.find? (fun r => decide (r.1 ≤ k) && decide (k < r.1 + r.2.1)) with
  | some r => BitVec.ofNat 8 (r.2.2 / 2 ^ (8 * (k - r.1)))
  | none => 0

/-- One byte of the control registers. -/
def State.ctlByte (s : State) (b : Block) (o : Nat) : Byte :=
  (Assoc.find (b.at o) s.ctl).getD (ctlResetByte (b.at o))

/-- A control register of `n` bytes. -/
def State.ctlNat (s : State) (b : Block) (o n : Nat) : Nat :=
  leNat ((List.range n).map (fun i => s.ctlByte b (o + i)))

/-- Whether an address lies in a channel whose rate switch is in progress: its home agent queues every access (13 R292). -/
def State.channelStalled (s : State) (a : Nat) : Bool :=
  inHbm a && (s.ctlByte .memctl (4 * (32 * (homeChannel a).1 + (homeChannel a).2))).getLsbD 4

/-- Whether accesses to an address wait at its home. -/
def State.homeWaits (s : State) (a : Nat) : Bool := s.slicePaused a || s.channelStalled a

/-- The control register table with one byte stored; a byte at its reset value is not listed. -/
def ctlSetByte (t : List (Nat × Byte)) (k : Nat) (v : Byte) : List (Nat × Byte) :=
  if v = ctlResetByte k then Assoc.del k t else Assoc.put k v t

/-- A control register with one bit set. -/
def setBit (x i : Nat) : Nat := setBits x i 1 1

/-- Stores a control register of `n` bytes. -/
def State.ctlSet (s : State) (b : Block) (o n x : Nat) : State :=
  { s with ctl := ((leBytes n x).mapIdx (fun i v => (b.at (o + i), v))).foldl (fun t c => ctlSetByte t c.1 c.2) s.ctl }

/-! ### Device-written rings (10 R225) -/

/-- A ring the device writes: its registers' values and the place of the PHASE bit in a record. -/
structure Ring where
  base : Nat
  cap : Nat
  head : Nat
  tail : Nat
  enabled : Bool
  recordSize : Nat
  phaseByte : Nat
  deriving DecidableEq, Repr

/-- Whether a capacity is a power of two in a range. -/
def powerIn (lo hi n : Nat) : Bool := decide (lo ≤ n) && decide (n ≤ hi) && decide (2 ^ Nat.log2 n = n)

/-- The registers of ring `r`: 0 and 1 the fault report rings of the dies (10 R213), 2 the page request ring, 16 + b the TRAP
ring of block b (11 R241). -/
def State.ring (s : State) (r : Nat) : Ring :=
  if r < 2 then
    { base := s.ctlNat .trans (0x10 + 0x10 * r) 8, cap := s.ctlNat .trans (0x18 + 0x10 * r) 2
      head := s.ctlNat .trans (0x1A + 0x10 * r) 2, tail := s.ctlNat .trans (0x1C + 0x10 * r) 2
      enabled := decide (s.ctlNat .trans (0x1E + 0x10 * r) 2 % 2 = 1) &&
        powerIn 64 32768 (s.ctlNat .trans (0x18 + 0x10 * r) 2)
      recordSize := 32, phaseByte := 0x1F }
  else if r = 2 then
    { base := s.ctlNat .io 0x28 8, cap := s.ctlNat .io 0x30 2
      head := s.ctlNat .io 0x32 2, tail := s.ctlNat .io 0x34 2
      enabled := decide (s.ctlNat .io 0x36 2 % 2 = 1) && powerIn 64 4096 (s.ctlNat .io 0x30 2)
      recordSize := 32, phaseByte := 32 }
  else
    let b := r - 16
    { base := s.ctlNat .io (0x100 + 0x10 * b) 8, cap := s.ctlNat .io (0x108 + 0x10 * b) 2
      head := s.ctlNat .io (0x10A + 0x10 * b) 2, tail := s.ctlNat .io (0x10C + 0x10 * b) 2
      enabled := decide (s.ctlNat .io (0x10E + 0x10 * b) 2 % 2 = 1) && powerIn 16 4096 (s.ctlNat .io (0x108 + 0x10 * b) 2)
      recordSize := 64, phaseByte := 0x0F }

/-- Stores a ring's TAIL register. -/
def State.setRingTail (s : State) (r t : Nat) : State :=
  if r < 2 then s.ctlSet .trans (0x1C + 0x10 * r) 2 t
  else if r = 2 then s.ctlSet .io 0x34 2 t
  else s.ctlSet .io (0x10C + 0x10 * (r - 16)) 2 t

/-- Whether the device can write a record into a ring now: enabled and not full. -/
def Ring.room (g : Ring) : Bool := g.enabled && decide ((g.tail + 1) % g.cap ≠ g.head)

/-- Whether the place of the next record of a ring can be written now: no operation in flight has shackled its line, and its home serves it
(07 R157, 13 R292, R308). -/
def State.ringClear (s : State) (r : Nat) : Bool :=
  let a := (s.ring r).base + (s.ring r).recordSize * (s.ring r).tail
  !s.homeWaits a &&
  s.groups.all (fun x => match x.2.matrixOp with | some o => o.lines.all (fun y => decide (y.1 ≠ a / 256)) | none => true)

/-- Whether the device writes a record into a ring now. -/
def State.ringOpen (s : State) (r : Nat) : Bool := (s.ring r).room && s.ringClear r

/-- A record with its PHASE bit set as given. -/
def withPhase (g : Ring) (ph : Bool) (bytes : List Byte) : List Byte :=
  bytes.mapIdx (fun i b => if i = g.phaseByte then (if ph then b ||| 1 else b &&& 0xFE) else b)

/-- Writes one record at a ring's TAIL and advances it, and signals the harts that serve the ring; PHASE flips when TAIL wraps. The ring has
room. -/
def State.writeRing (s : State) (r : Nat) (bytes : List Byte) : State :=
  let g := s.ring r
  let ph := Assoc.get true s.ringPhase r
  let t := (g.tail + 1) % g.cap
  let s1 := s.store ((withPhase g ph bytes).mapIdx (fun i b => (g.base + g.recordSize * g.tail + i, b)))
  let s2 := { s1.setRingTail r t with out := s.out ++ [.signal r] }
  if t = 0 then { s2 with ringPhase := Assoc.set true s2.ringPhase r (!ph) } else s2

/-- Queues a record for a ring: it is written at once when none waits and there is room, and otherwise waits in order. -/
def State.post (s : State) (r : Nat) (bytes : List Byte) : State :=
  if (Assoc.get [] s.rings r).isEmpty && s.ringOpen r then s.writeRing r bytes
  else { s with rings := Assoc.set [] s.rings r (Assoc.get [] s.rings r ++ [bytes]) }

/-- Writes the oldest record that waits for a ring, when there is room. -/
def State.flushRing (s : State) (r : Nat) : State :=
  match Assoc.get [] s.rings r with
  | b :: t => if s.ringOpen r then { s with rings := Assoc.set [] s.rings r t }.writeRing r b else s
  | [] => s

/-- The die of a core (01 R10). -/
def dieOf (core : Nat) : Nat := core / 128

/-- A fault report (10 R225). -/
structure Report where
  jobid : Nat := 0
  core : Nat := 0
  frame : Nat := 0
  launchid : Nat := 0
  faultword : Nat := 0
  pcword : Nat := 0
  faddr : Nat := 0
  lanes : Nat := 0
  seq : Nat := 0
  groupix : Nat := 0
  remote : Bool := false
  service : Bool := false
  deriving DecidableEq, Repr

/-- The 32 bytes of a report, PHASE clear. -/
def Report.bytes (r : Report) : List Byte :=
  leBytes 2 r.jobid ++ leBytes 1 r.core ++ leBytes 1 r.frame ++ leBytes 4 r.launchid ++ leBytes 4 r.faultword ++
  leBytes 4 r.pcword ++ leBytes 8 r.faddr ++ leBytes 4 r.lanes ++ leBytes 2 r.seq ++ leBytes 1 r.groupix ++
  leBytes 1 (2 * b2n r.remote + 4 * b2n r.service)

/-- Posts a report to the fault report ring of a die. -/
def State.report (s : State) (die : Nat) (r : Report) : State := s.post die r.bytes

/-- Posts a configuration-error report (KIND 0x14), which names the physical address involved and the job whose access met it,
where one did; a report that concerns a group goes to the ring of the group's die (10 R225).
DEDUCED: log 61. -/
def State.configError (s : State) (addr : Nat) (job : Nat := 0) (die : Nat := 0) : State :=
  s.report die { jobid := job, faultword := 0x14, faddr := addr }

/-- The configuration-error report that comes with a fault, where it has one. -/
def State.noteConfig (s : State) (t : Trap) (job : Nat := 0) (die : Nat := 0) : State :=
  match t.cfg with | some a => s.configError a job die | none => s

/-! ### Groups -/

/-- The key of a placed group: its core and image frame (04 R77). -/
def groupKey (core frame : Nat) : Nat := 192 * core + frame

/-- The state with one group changed. -/
def State.setGroup (s : State) (key : Nat) (g : Group) : State := { s with groups := Assoc.put key g s.groups }

/-- The state with a placed group changed by a function. -/
def State.mapGroup (s : State) (key : Nat) (f : Group → Group) : State :=
  { s with groups := Assoc.modify key f s.groups }

/-- A partition's state; partitions are numbered 4 × core + part. -/
def State.part (s : State) (n : Nat) : Part := Assoc.get {} s.parts n

/-- The state with one partition changed. -/
def State.setPart (s : State) (n : Nat) (p : Part) : State := { s with parts := Assoc.set {} s.parts n p }

/-- The number of the partition that holds a group. -/
def Group.partNo (g : Group) : Nat := 4 * g.core + g.part

/-- The cycle count of a group's partition. -/
def State.now (s : State) (g : Group) : Nat := (s.part g.partNo).cycle

/-- A group's live slot. -/
def Group.live (g : Group) (slot : Bool) : Entry := if slot then g.live1 else g.live0

/-- A group with one live slot replaced. -/
def Group.setLive (g : Group) (slot : Bool) (e : Entry) : Group :=
  if slot then { g with live1 := e } else { g with live0 := e }

/-- The PCword of a program counter (14 R309). -/
def Pc.word (p : Pc) : BitVec 22 := p.ovl ++ p.off

/-- The program counter of a PCword whose overlay stands in the low byte (04 R92, 10 R221). -/
def Pc.low (p : Pc) : BitVec 22 := p.off ++ p.ovl

/-- The program counter after one word. -/
def Pc.next (p : Pc) : Pc := if p.off = 0x3FFF then { p with past := true } else { p with off := p.off + 1 }

/-- A logical lane line (04 R82): image position n mod 256. -/
def Group.line (g : Group) (n : Nat) : Lanes Word := Assoc.get (Lanes.fill 0) g.lines (n % 256)

/-- A group with a logical lane line stored. -/
def Group.setLine (g : Group) (n : Nat) (x : Lanes Word) : Group :=
  { g with lines := Assoc.set (Lanes.fill 0) g.lines (n % 256) x }

/-- The tag byte of a logical lane line (04 R90). -/
def Group.tagByte (g : Group) (n : Nat) : BitVec 8 := Assoc.get 0 g.ltags n

/-- A group with the tag of a logical lane line set; the reserved bits of the byte become 0. -/
def Group.setTag (g : Group) (n : Nat) (t : BitVec 5) : Group :=
  { g with ltags := Assoc.set 0 g.ltags n (t.zeroExtend 8) }

/-- A uniform register; numbers are 0 to 31. -/
def Group.kreg (g : Group) (n : Nat) : Word := g.k.toList.getD n 0

/-- A group with a uniform register stored. -/
def Group.setK (g : Group) (n : Nat) (x : Word) : Group := { g with k := g.k.setIfInBounds n x }

/-- A lane predicate; code 7 means always. -/
def Group.preg (g : Group) (n : Nat) : Mask := if n = 7 then BitVec.allOnes 32 else g.p.toList.getD n 0

/-- A group with a lane predicate stored; code 7 stores nothing. -/
def Group.setP (g : Group) (n : Nat) (x : Mask) : Group := { g with p := g.p.setIfInBounds n x }

/-- A uniform predicate bit. -/
def Group.qbit (g : Group) (n : Nat) : Bool := g.q.getLsbD n

/-- A group with a uniform predicate stored; code 3 stores nothing (14 R316). -/
def Group.setQ (g : Group) (n : Nat) (b : Bool) : Group :=
  if n < 3 then { g with q := w32 (setBits g.q.toNat n 1 (b2n b)) } else g

/-- The tag of a tile register. -/
def Group.tileTag (g : Group) (t : Nat) : BitVec 5 := BitVec.ofNat 5 (g.ztag.toNat / 2 ^ (8 * t))

/-- A group with the tag of a tile register set. -/
def Group.setTileTag (g : Group) (t : Nat) (x : BitVec 5) : Group :=
  { g with ztag := BitVec.ofNat 64 (setBits g.ztag.toNat (8 * t) 8 x.toNat) }

/-- An element of a tile register (04 R89). -/
def Group.tile (g : Group) (t i j : Nat) : Word := Assoc.get 0 g.tiles (4096 * t + 64 * i + j)

/-- A group with an element of a tile register stored. -/
def Group.setTile (g : Group) (t i j : Nat) (x : Word) : Group :=
  { g with tiles := Assoc.set 0 g.tiles (4096 * t + 64 * i + j) x }

/-- RMODE (04 R91). A code that names no mode, which a system core may leave in the image, rounds as code 4 does (05 R107).
DESIGN CHOICE: log 153. -/
def Group.rmode (g : Group) : Nat := g.mode.toNat % 8

/-- CHK (04 R91). -/
def Group.chk (g : Group) : Bool := g.mode.getLsbD 3

/-- An engine counter. -/
def Group.ctr (g : Group) : EngineClass → BitVec 16
  | .copy => g.ctrCopy
  | .matrix => g.ctrMatrix
  | .remote => g.ctrRemote
  | .io => g.ctrIo

/-- A group with an engine counter stored. -/
def Group.setCtr (g : Group) (c : EngineClass) (x : BitVec 16) : Group :=
  match c with
  | .copy => { g with ctrCopy := x }
  | .matrix => { g with ctrMatrix := x }
  | .remote => { g with ctrRemote := x }
  | .io => { g with ctrIo := x }

/-- An engine operation issues: its counter rises by 1 (08 R179). -/
def Group.ctrUp (g : Group) (c : EngineClass) : Group := g.setCtr c (g.ctr c + 1)

/-- An engine operation completes: its counter falls by 1. -/
def Group.ctrDown (g : Group) (c : EngineClass) : Group := g.setCtr c (g.ctr c - 1)

/-- The code of an engine class (08 R179). -/
def EngineClass.code : EngineClass → Nat
  | .copy => 0
  | .matrix => 1
  | .remote => 2
  | .io => 3

/-- The code of a role (02 R22). -/
def Role.code : Role → Nat
  | .copy => 0
  | .matrix => 1
  | .vector => 2

/-- The plane index of an offset (12 R265). -/
def planeIndex (off : Nat) : Nat := Nat.xor (bitsOf off 8 3) (bitsOf off 11 3)

/-- A store to another chip, at an offset there, is counted, and counted down (12 R272). -/
def Group.ackUp (g : Group) (off : Nat) : Group :=
  { g.ctrUp .remote with acks := Assoc.set 0 g.acks (planeIndex off) (Assoc.get 0 g.acks (planeIndex off) + 1) }
def Group.ackDown (g : Group) (off : Nat) : Group :=
  { g.ctrDown .remote with acks := Assoc.set 0 g.acks (planeIndex off) (Assoc.get 0 g.acks (planeIndex off) - 1) }

/-- The first address of an access. -/
def AccessKind.first : AccessKind → Nat
  | .read cells => match cells with | c :: _ => c.1 | [] => 0
  | .write cells => match cells with | c :: _ => c.1 | [] => 0
  | .rmw addr _ _ _ => addr

/-- Leaves a failure pending on a group: the first of a class in full, later ones counted (08 R181). -/
def Group.addFailure (g : Group) (c : EngineClass) (t : Trap) (pcword : BitVec 22) : Group :=
  match Assoc.find c.code g.fails with
  | some f => { g with fails := Assoc.put c.code { f with more := min 255 (f.more + 1) } g.fails }
  | none => { g with fails := Assoc.put c.code { trap := { t with cfg := none }, pcword := pcword } g.fails }

/-- The lanes of the fragment that issued last. -/
def Group.issuer (g : Group) : Mask := (g.live g.lastSlot).mask

/-- The live lanes of a group: those that have not executed EXIT (02 R18). -/
def Group.liveLanes (g : Group) : Mask := ~~~g.exited

/-- Whether the whole group is one fragment (04 R85): nothing stacked and live slot 1 holds no fragment. -/
def Group.whole (g : Group) : Bool := decide (g.sptr = 0) && decide (g.live1.kind ≠ 1)

/-- A group that gives up its resident slot; its last-page registers are cleared (03 R70, 07 R155). -/
def Group.swapOut (g : Group) : Group := { g with resident := false, lastPage := [] }

/-! ### Taking an exception (10 R220 to R225) -/

/-- The order in which traps are reported: the rank of R223, and parameter before scope within rank 10. -/
def Trap.rank (t : Trap) : Nat :=
  match t.kind.toNat with
  | 0x01 => 10 | 0x02 => 20 | 0x03 => 30 | 0x04 => 40 | 0x05 => 50 | 0x06 => 60 | 0x07 => 70
  | 0x08 => 80 | 0x09 => 80 | 0x0A => 90 | 0x0B => 100 | 0x0C => 101 | 0x0D => 110 | 0x0E => 120 | 0x0F => 130
  | _ => 140

/-- The trap that is reported when several hold: the highest rank, and the first of that rank in the list.
DEDUCED: log 18. -/
def worst : List Trap → Option Trap
  | [] => none
  | t :: ts =>
    match worst ts with
    | some u => if u.rank < t.rank then some u else some t
    | none => some t

/-- The traps of the lanes of one instruction, ascending by lane, as one: the highest rank, the kind and cause of the lowest lane
that met it, its address, and every lane that met the same kind and cause (10 R222). -/
def mergeLanes (ts : List (Nat × Trap)) : Option Trap :=
  match worst (ts.map (fun x => x.2)) with
  | some t =>
    let same := ts.filter (fun x => decide (x.2.kind = t.kind) && decide (x.2.cause = t.cause))
    some { t with lanes := same.foldl (fun m x => m ||| laneBit x.1) 0 }
  | none => none

/-- FAULTWORD of a trap (10 R221). -/
def Trap.faultword (t : Trap) (engine : Option EngineClass) (more : Nat) : Nat :=
  t.kind.toNat + 2 ^ 8 * t.cause.toNat + 2 ^ 12 * b2n t.write +
    (match engine with | some c => 2 ^ 13 + 2 ^ 14 * c.code | none => 0) + 2 ^ 16 * more

/-- WAITKIND after a stop: 6 after a page fault of CAUSE 0 or 1 and after a walk fault, 0 otherwise (10 R220). -/
def Trap.waitkind (t : Trap) : BitVec 8 :=
  if (t.kind = 0x08 ∧ t.cause ≠ 2) ∨ t.kind = 0x09 then 6 else 0

/-- The report of a stop (10 R225). -/
def Group.stopReport (g : Group) : Report :=
  { jobid := g.job, core := g.core, frame := g.frame, launchid := g.launchid.toNat
    faultword := g.frec.faultword.toNat, pcword := g.frec.pcword.toNat, faddr := g.frec.faddr.toNat
    lanes := g.frec.lanes.toNat, seq := g.frec.seq.toNat, groupix := g.groupix.toNat }

/-- A group with its fault record written for a stop at `pc` of live slot `slot`. -/
def Group.record (g : Group) (slot : Bool) (pc : Pc) (t : Trap) (engine : Option EngineClass) (more : Nat)
    (info : BitVec 64) : Group :=
  { g with
    frec := { g.frec with
      faultword := w32 (t.faultword engine more)
      pcword := w32 pc.low.toNat
      faddr := BitVec.ofNat 64 (t.addr % 2 ^ 56)
      lanes := t.lanes
      entry := t.entry
      level := BitVec.ofNat 8 (t.level.toNat + 4 * b2n slot)
      seq := g.frec.seq + 1
      info := info } }

/-- A core does not keep a translation that was refused for write permission (10 R217). -/
def State.dropRefused (s : State) (g : Group) (t : Trap) : State :=
  if t.kind = 0x08 ∧ t.cause = 1 then
    { s with tlb := s.tlb.filter (fun x => !(decide (x.core = g.core) && decide (x.job = g.job) && !x.writable)) }
  else s

/-- TAKING AN EXCEPTION. The group `key` stops exactly before the instruction at `pc` of its live slot `slot`: its fault record is
written, WAITKIND is set, it gives up its issue slot, and the stop is reported on its die's ring (10 R220, R221, R225). The
program counters stay as they are. With an engine class, the stop is that of a pending failure, whose PCword is `info`.
DEDUCED: log 34. -/
def groupStop (s : State) (key : Nat) (slot : Bool) (pc : Pc) (t : Trap) (engine : Option EngineClass := none)
    (more : Nat := 0) (info : Option (BitVec 64) := none) : State :=
  match Assoc.find key s.groups with
  | none => s
  | some g =>
    let g1 := g.record slot pc t engine more (info.getD t.info)
    let g2 := { g1.swapOut with stop := .faulted, waitkind := t.waitkind, wait := .none }
    (({ (s.dropRefused g t).setGroup key g2 with issue := none }).report (dieOf g.core) g2.stopReport).noteConfig t g.job (dieOf g.core)

/-- REISSUE: a group stopped by a trap or fault becomes ready at the program counter in its image (10 R226). -/
def Group.reissue (g : Group) : Group := { g with stop := .running, waitkind := 0 }

/-- SKIP: the fragment that FREC.LEVEL[2] names moves to the word after the instruction PCWORD names; the group becomes ready
(10 R226). -/
def Group.skip (g : Group) : Group :=
  let slot := g.frec.level.getLsbD 2
  let pc : Pc := ⟨g.frec.pcword.extractLsb' 0 8, g.frec.pcword.extractLsb' 8 14, false⟩
  { g.setLive slot { g.live slot with pc := pc.next } with stop := .running, waitkind := 0 }

/-- STOP: the group stops at its boundary with FREC.KIND 0; a wait it was in stays recorded (10 R220, R226). -/
def Group.commandStop (g : Group) (slot : Bool) : Group :=
  let g1 := g.record slot (g.live slot).pc { kind := 0 } none 0 0
  { g1.swapOut with stop := .commanded }

/-- A wait ends. A group stopped by STOP keeps the WAITKIND and WAITADDR of the wait it was in (10 R220). -/
def Group.unwait (g : Group) : Group :=
  if g.stop = .commanded then { g with wait := .none } else { g with wait := .none, waitkind := 0, waitaddr := 0 }

/-- RUN: a group stopped by STOP continues; the wait that it was in is resumed as it stood, unless it has ended since (10 R226). -/
def Group.run (g : Group) : Group := if g.wait = .none then { g with stop := .running }.unwait else { g with stop := .running }

end Sys2Proof.Machine
end

