-- ==== Sys2Proof/Machine/Operands.lean ====
section
/-! DEFINITION. Operands: the registers each instruction reads and writes, its guard, roles, stall count and latency; reading
registers past results in flight; the tags of operands. -/

namespace Sys2Proof.Machine

/-! ### Format tags (05 R97) -/

/-- Tag codes. -/
abbrev tRAW : BitVec 5 := 0x00
abbrev tI32 : BitVec 5 := 0x01
abbrev tU32 : BitVec 5 := 0x02
abbrev tFP32 : BitVec 5 := 0x03
abbrev tFP64 : BitVec 5 := 0x04
abbrev tBF16 : BitVec 5 := 0x05
abbrev tFP16 : BitVec 5 := 0x06
abbrev tE4M3 : BitVec 5 := 0x07
abbrev tE5M2 : BitVec 5 := 0x08
abbrev tE3M2 : BitVec 5 := 0x09
abbrev tE2M3 : BitVec 5 := 0x0A
abbrev tE2M1 : BitVec 5 := 0x0B
abbrev tI8 : BitVec 5 := 0x0C
abbrev tU8 : BitVec 5 := 0x0D
abbrev tI4 : BitVec 5 := 0x0E
abbrev tU4 : BitVec 5 := 0x0F
abbrev tI4X : BitVec 5 := 0x10
abbrev tI2T : BitVec 5 := 0x11
abbrev tI16 : BitVec 5 := 0x12
abbrev tF19 : BitVec 5 := 0x13

/-- Whether a tag is one of the 20 assigned codes. -/
def tagAssigned (t : BitVec 5) : Bool := decide (t.toNat < 0x14)

/-- Elements per pair of registers: twice the density of R377 (16 R377). -/
def density2 (t : BitVec 5) : Nat :=
  if t = tFP64 then 1
  else if t = tBF16 ∨ t = tFP16 ∨ t = tI16 then 4
  else if t = tE4M3 ∨ t = tE5M2 ∨ t = tE3M2 ∨ t = tE2M3 ∨ t = tI8 ∨ t = tU8 then 8
  else if t = tE2M1 ∨ t = tI4 ∨ t = tU4 ∨ t = tI4X then 16
  else if t = tI2T then 32
  else 2

/-! ### What an instruction names -/

/-- The guard of an instruction (14 R315). -/
inductive Guard where
  | always
  | lane (g : BitVec 3)
  | uniform (q : BitVec 2)
  deriving DecidableEq, Repr

/-- A register operand as an instruction names it: consecutive registers from a 6-bit lane code (04 R79) or from a uniform
register, a lane predicate, a uniform predicate, a tile. -/
inductive Operand where
  | code (c : Nat) (n : Nat)
  | k (n cnt : Nat)
  | p (n : Nat)
  | q (n : Nat)
  | z (t : Nat)
  deriving DecidableEq, Repr

/-- Registers from a lane operand code. -/
def src (c : BitVec 6) (n : Nat) : Operand := .code c.toNat n

/-- Uniform registers from a field. -/
def ku {w : Nat} (c : BitVec w) (n : Nat) : Operand := .k c.toNat n

/-- A lane predicate field; 7 names none. -/
def pred (c : BitVec 3) : Operand := .p c.toNat

/-- What issue needs to know of an instruction (14 R313, R315, R317, R318, 02 R23). -/
structure Shape where
  /-- Result latency; 0 for variable latency. -/
  latency : Nat
  roles : List Role
  guard : Guard
  stall : Nat
  reads : List Operand
  writes : List Operand
  /-- A matrix instruction or TPREF (02 R24); a geometric instruction (06). -/
  matrix : Bool := false
  geo : Bool := false
  deriving DecidableEq, Repr

/-- The registers of an operand, for a group (window registers as logical lines). -/
def Operand.regs (lbase : Nat) : Operand → List Reg
  | .code c n => if c < 48 then (List.range n).map (fun i => .v (lbase + c + i)) else (List.range n).map (fun i => .k (c - 48 + i))
  | .k m n => (List.range n).map (fun i => .k (m + i))
  | .p n => if n = 7 then [] else [.p n]
  | .q n => if n = 3 then [] else [.q n]
  | .z t => [.z t]

/-- The tag of a lane operand as it stands; RAW for a broadcast. -/
def Group.codeTag (g : Group) (c : BitVec 6) : BitVec 5 :=
  if c.toNat < 48 then BitVec.ofNat 5 (g.tagByte (g.lbase + c.toNat)).toNat else tRAW

/-- The operating format of a lane float instruction: the tag of A; for a broadcast A, of the first lane register in the
order B, D among its sources; FP32 when every source is broadcast (04 R79, 16 R370). An instruction that does not read vD gives its B
for D. -/
def Group.operating (g : Group) (a b d : BitVec 6) : BitVec 5 :=
  if a.toNat < 48 then g.codeTag a
  else if b.toNat < 48 then g.codeTag b
  else if d.toNat < 48 then g.codeTag d
  else tFP32

/-- Registers per operand of a float instruction: a pair for FP64. -/
def fwidth (g : Group) (a b d : BitVec 6) : Nat := if g.operating a b d = tFP64 then 2 else 1

/-- The source format of a conversion: a broadcast source is read as FP32 (04 R79, 16 R378). -/
def Group.cvtFormat (g : Group) (a : BitVec 6) : BitVec 5 := if a.toNat < 48 then g.codeTag a else tFP32

/-- Elements per lane of a conversion, doubled: the larger density, and one element between FP64 registers (16 R377).
DEDUCED: log 138. -/
def cvtElems2 (x y : BitVec 5) : Nat := max 2 (max (density2 x) (density2 y))

/-- Source registers of a conversion. -/
def cvtSource (g : Group) (a : BitVec 6) (f : BitVec 5) : Nat :=
  cvtElems2 (g.cvtFormat a) f / density2 (g.cvtFormat a)

/-- Target registers of a conversion. -/
def cvtTarget (g : Group) (a : BitVec 6) (f : BitVec 5) : Nat := cvtElems2 (g.cvtFormat a) f / density2 f

/-- Every role (02 R23). -/
def everyRole : List Role := [.copy, .matrix, .vector]

/-- A lane instruction that every role may issue. -/
def laneOp (latency : Nat) (g : Guard) (st : BitVec 3) (reads writes : List Operand) : Shape :=
  { latency := latency, roles := everyRole, guard := g, stall := st.toNat, reads := reads, writes := writes }

/-- A lane instruction of the vector role. -/
def floatOp (latency : Nat) (g : Guard) (st : BitVec 3) (reads writes : List Operand) : Shape :=
  { latency := latency, roles := [.vector], guard := g, stall := st.toNat, reads := reads, writes := writes }

/-- A geometric instruction. -/
def geoInstrOp (reads writes : List Operand) : Shape := { floatOp 0 .always 0 reads writes with geo := true }

/-- A uniform instruction that every role may issue. -/
def uniOp (latency : Nat) (g : Guard) (st : BitVec 3) (reads writes : List Operand) : Shape :=
  { latency := latency, roles := everyRole, guard := g, stall := st.toNat, reads := reads, writes := writes }

/-- A uniform instruction of the vector role. -/
def vecOp (latency : Nat) (g : Guard) (st : BitVec 3) (reads writes : List Operand) : Shape :=
  { latency := latency, roles := [.vector], guard := g, stall := st.toNat, reads := reads, writes := writes }

/-- An instruction of the copy role. -/
def copyOp (latency : Nat) (g : Guard) (st : BitVec 3) (reads writes : List Operand) : Shape :=
  { latency := latency, roles := [.copy], guard := g, stall := st.toNat, reads := reads, writes := writes }

/-- An instruction of the matrix role. -/
def matrixOp (reads writes : List Operand) : Shape :=
  { latency := 0, roles := [.matrix], guard := .always, stall := 0, reads := reads, writes := writes, matrix := true }

/-- A device step, which no group issues. -/
def stepShape : Shape :=
  { latency := 0, roles := [], guard := .always, stall := 0, reads := [], writes := [] }

/-- The shape of each instruction, for a group whose tags set the widths of float operands. -/
def shapeOf (gr : Group) : Instr → Shape
  | .iadd d a b g st => laneOp 2 (.lane g) st [src a 1, src b 1] [src d 1]
  | .isub d a b g st => laneOp 2 (.lane g) st [src a 1, src b 1] [src d 1]
  | .iaddi d a _ st => laneOp 2 .always st [src a 1] [src d 1]
  | .imul d a b g st => laneOp 4 (.lane g) st [src a 1, src b 1] [src d 1]
  | .imulh d a b g st => laneOp 4 (.lane g) st [src a 1, src b 1] [src d 1]
  | .imulhU d a b g st => laneOp 4 (.lane g) st [src a 1, src b 1] [src d 1]
  | .imad d a b g st => laneOp 4 (.lane g) st [src a 1, src b 1, src d 1] [src d 1]
  | .imin d a b g st => laneOp 2 (.lane g) st [src a 1, src b 1] [src d 1]
  | .iminU d a b g st => laneOp 2 (.lane g) st [src a 1, src b 1] [src d 1]
  | .imax d a b g st => laneOp 2 (.lane g) st [src a 1, src b 1] [src d 1]
  | .imaxU d a b g st => laneOp 2 (.lane g) st [src a 1, src b 1] [src d 1]
  | .iabs d a g st => laneOp 2 (.lane g) st [src a 1] [src d 1]
  | .add64 d a b g st => laneOp 2 (.lane g) st [src a 2, src b 2] [src d 2]
  | .lea d a b g st => laneOp 2 (.lane g) st [src a 2, src b 1] [src d 2]
  | .leaD d a b g st => laneOp 2 (.lane g) st [src a 2, src b 1] [src d 2]
  | .and d a b g st => laneOp 2 (.lane g) st [src a 1, src b 1] [src d 1]
  | .or d a b g st => laneOp 2 (.lane g) st [src a 1, src b 1] [src d 1]
  | .xor d a b g st => laneOp 2 (.lane g) st [src a 1, src b 1] [src d 1]
  | .not d a g st => laneOp 2 (.lane g) st [src a 1] [src d 1]
  | .andi d a _ st => laneOp 2 .always st [src a 1] [src d 1]
  | .ori d a _ st => laneOp 2 .always st [src a 1] [src d 1]
  | .xori d a _ st => laneOp 2 .always st [src a 1] [src d 1]
  | .iaddSat d a b g st => laneOp 2 (.lane g) st [src a 1, src b 1] [src d 1]
  | .shl d a b g st => laneOp 2 (.lane g) st [src a 1, src b 1] [src d 1]
  | .shr d a b g st => laneOp 2 (.lane g) st [src a 1, src b 1] [src d 1]
  | .sar d a b g st => laneOp 2 (.lane g) st [src a 1, src b 1] [src d 1]
  | .shli d a _ st => laneOp 2 .always st [src a 1] [src d 1]
  | .shri d a _ st => laneOp 2 .always st [src a 1] [src d 1]
  | .sari d a _ st => laneOp 2 .always st [src a 1] [src d 1]
  | .popc d a g st => laneOp 2 (.lane g) st [src a 1] [src d 1]
  | .clz d a g st => laneOp 2 (.lane g) st [src a 1] [src d 1]
  | .brev d a g st => laneOp 2 (.lane g) st [src a 1] [src d 1]
  | .bfe d a b g st => laneOp 2 (.lane g) st [src a 1, src b 1] [src d 1]
  | .bfeS d a b g st => laneOp 2 (.lane g) st [src a 1, src b 1] [src d 1]
  | .bfi d a b g st => laneOp 2 (.lane g) st [src a 1, src b 1, src d 1] [src d 1]
  | .itest p _ a b g st => laneOp 2 (.lane g) st [src a 1, src b 1] [pred p]
  | .sel d a b m st => laneOp 2 .always st [src a 1, src b 1, pred m] [src d 1]
  | .mov d a g st => laneOp 2 (.lane g) st [src a 1] [src d 1]
  | .movi d _ st => laneOp 2 .always st [] [src d 1]
  | .slane d a b _ st => laneOp 4 .always st [src a 1, src b 1] [src d 1]
  | .isubSat d a b g st => laneOp 2 (.lane g) st [src a 1, src b 1] [src d 1]
  | .idot4 d a b g st => laneOp 4 (.lane g) st [src a 1, src b 1, src d 1] [src d 1]
  | .idot8 d a b g st => laneOp 4 (.lane g) st [src a 1, src b 1, src d 1] [src d 1]
  | .pswz d a b g st => laneOp 2 (.lane g) st [src a 1, src b 1, src d 1] [src d 1]
  | .itestD p _ a b g st => laneOp 2 (.lane g) st [src a 2, src b 2] [pred p]
  | .fadd d a b g st => floatOp 4 (.lane g) st [src a (fwidth gr a b b), src b (fwidth gr a b b)] [src d (fwidth gr a b b)]
  | .fsub d a b g st => floatOp 4 (.lane g) st [src a (fwidth gr a b b), src b (fwidth gr a b b)] [src d (fwidth gr a b b)]
  | .fmul d a b g st => floatOp 4 (.lane g) st [src a (fwidth gr a b b), src b (fwidth gr a b b)] [src d (fwidth gr a b b)]
  | .fma d a b g st => floatOp 4 (.lane g) st [src a (fwidth gr a b d), src b (fwidth gr a b d), src d (fwidth gr a b d)] [src d (fwidth gr a b d)]
  | .fms d a b g st => floatOp 4 (.lane g) st [src a (fwidth gr a b d), src b (fwidth gr a b d), src d (fwidth gr a b d)] [src d (fwidth gr a b d)]
  | .fnma d a b g st => floatOp 4 (.lane g) st [src a (fwidth gr a b d), src b (fwidth gr a b d), src d (fwidth gr a b d)] [src d (fwidth gr a b d)]
  | .fmin d a b g st => floatOp 4 (.lane g) st [src a (fwidth gr a b b), src b (fwidth gr a b b)] [src d (fwidth gr a b b)]
  | .fmax d a b g st => floatOp 4 (.lane g) st [src a (fwidth gr a b b), src b (fwidth gr a b b)] [src d (fwidth gr a b b)]
  | .fabs d a g st => floatOp 4 (.lane g) st [src a (fwidth gr a a a)] [src d (fwidth gr a a a)]
  | .fneg d a g st => floatOp 4 (.lane g) st [src a (fwidth gr a a a)] [src d (fwidth gr a a a)]
  | .ftest p _ a b g st => floatOp 4 (.lane g) st [src a (fwidth gr a b b), src b (fwidth gr a b b)] [pred p]
  | .fclass d a g st => floatOp 4 (.lane g) st [src a (fwidth gr a a a)] [src d 1]
  | .frcp d a g st => floatOp 12 (.lane g) st [src a (fwidth gr a a a)] [src d (fwidth gr a a a)]
  | .frsq d a g st => floatOp 12 (.lane g) st [src a (fwidth gr a a a)] [src d (fwidth gr a a a)]
  | .fsqrt d a g st => floatOp 12 (.lane g) st [src a (fwidth gr a a a)] [src d (fwidth gr a a a)]
  | .fexp2 d a g st => floatOp 12 (.lane g) st [src a (fwidth gr a a a)] [src d (fwidth gr a a a)]
  | .flog2 d a g st => floatOp 12 (.lane g) st [src a (fwidth gr a a a)] [src d (fwidth gr a a a)]
  | .fsin d a g st => floatOp 12 (.lane g) st [src a (fwidth gr a a a)] [src d (fwidth gr a a a)]
  | .fcos d a g st => floatOp 12 (.lane g) st [src a (fwidth gr a a a)] [src d (fwidth gr a a a)]
  | .frnd d a f _ st => floatOp 4 .always st [src a (if f = 4 then 2 else 1)] [src d (if f = 4 then 2 else 1)]
  | .fscl d a b g st => floatOp 4 (.lane g) st [src a (fwidth gr a a a), src b 1] [src d (fwidth gr a a a)]
  | .fcvt d a f _ st => floatOp 4 .always st [src a (cvtSource gr a f)] [src d (cvtTarget gr a f)]
  | .icvt d a f _ st => floatOp 4 .always st [src a (cvtSource gr a f)] [src d (cvtTarget gr a f)]
  | .tag d a f st => floatOp 4 .always st [src a (if f = 4 then 2 else 1)] [src d (if f = 4 then 2 else 1)]
  | .fdot2 d a b g st => floatOp 12 (.lane g) st [src a 1, src b 1, src d 1] [src d 1]
  | .fdot4 d a b g st => floatOp 12 (.lane g) st [src a 1, src b 1, src d 1] [src d 1]
  | .orient2 d a im x _ f => geoInstrOp ([src a (if f = 1 then 6 else 12)] ++ (if x = 1 then [src im 1] else [])) [src d 1]
  | .orient3 d a im x _ f => geoInstrOp ([src a (if f = 1 then 12 else 24)] ++ (if x = 1 then [src im 1] else [])) [src d 1]
  | .incirc d a im x _ f => geoInstrOp ([src a (if f = 1 then 8 else 16)] ++ (if x = 1 then [src im 1] else [])) [src d 1]
  | .insph d a im x _ f => geoInstrOp ([src a (if f = 1 then 15 else 30)] ++ (if x = 1 then [src im 1] else [])) [src d 1]
  | .segx d a im x _ f => geoInstrOp ([src a (if f = 1 then 8 else 16)] ++ (if x = 1 then [src im 1] else [])) [src d 1]
  | .ldB d a _ g => laneOp 0 (.lane g) 0 [src a 2] [src d 1]
  | .ldBs d a _ g => laneOp 0 (.lane g) 0 [src a 2] [src d 1]
  | .ldH d a _ g => laneOp 0 (.lane g) 0 [src a 2] [src d 1]
  | .ldHs d a _ g => laneOp 0 (.lane g) 0 [src a 2] [src d 1]
  | .ldW d a _ g => laneOp 0 (.lane g) 0 [src a 2] [src d 1]
  | .ldD d a _ g => laneOp 0 (.lane g) 0 [src a 2] [src d 2]
  | .ldQ d a _ g => laneOp 0 (.lane g) 0 [src a 2] [src d 4]
  | .ldNt d a _ g => laneOp 0 (.lane g) 0 [src a 2] [src d 1]
  | .stB d a _ g => laneOp 0 (.lane g) 0 [src a 2, src d 1] []
  | .stH d a _ g => laneOp 0 (.lane g) 0 [src a 2, src d 1] []
  | .stW d a _ g => laneOp 0 (.lane g) 0 [src a 2, src d 1] []
  | .stD d a _ g => laneOp 0 (.lane g) 0 [src a 2, src d 2] []
  | .stQ d a _ g => laneOp 0 (.lane g) 0 [src a 2, src d 4] []
  | .stOf d a w g => laneOp 0 (.lane g) 0 [src a 2, src d (2 ^ w.toNat)] []
  | .lda d a _ w g => laneOp 0 (.lane g) 0 [src a 2] [src d (2 ^ w.toNat)]
  | .stl d a _ w g => laneOp 0 (.lane g) 0 [src a 2, src d (2 ^ w.toNat)] []
  | .atomW d a b _ _ => laneOp 0 .always 0 [src a 2, src b 1] [src d 1]
  | .atomD d a b _ _ => laneOp 0 .always 0 [src a 2, src b 2] [src d 2]
  | .casW d a b _ => laneOp 0 .always 0 [src a 2, src b 1, src d 1] [src d 1]
  | .casD d a b _ => laneOp 0 .always 0 [src a 2, src b 2, src d 2] [src d 2]
  | .pref _ a _ g => laneOp 0 (.lane g) 0 [src a 2] []
  | .nop st => uniOp 0 .always st [] []
  | .uadd d a b q st => uniOp 1 (.uniform q) st [ku a 1, ku b 1] [ku d 1]
  | .usub d a b q st => uniOp 1 (.uniform q) st [ku a 1, ku b 1] [ku d 1]
  | .uaddi d a _ st => uniOp 1 .always st [ku a 1] [ku d 1]
  | .umul d a b q st => uniOp 1 (.uniform q) st [ku a 1, ku b 1] [ku d 1]
  | .umulh d a b q st => uniOp 1 (.uniform q) st [ku a 1, ku b 1] [ku d 1]
  | .umulhU d a b q st => uniOp 1 (.uniform q) st [ku a 1, ku b 1] [ku d 1]
  | .uadd64 d a b q st => uniOp 1 (.uniform q) st [ku a 2, ku b 2] [ku d 2]
  | .uand d a b q st => uniOp 1 (.uniform q) st [ku a 1, ku b 1] [ku d 1]
  | .uor d a b q st => uniOp 1 (.uniform q) st [ku a 1, ku b 1] [ku d 1]
  | .uxor d a b q st => uniOp 1 (.uniform q) st [ku a 1, ku b 1] [ku d 1]
  | .uandi d a _ st => uniOp 1 .always st [ku a 1] [ku d 1]
  | .uori d a _ st => uniOp 1 .always st [ku a 1] [ku d 1]
  | .ushl d a b q st => uniOp 1 (.uniform q) st [ku a 1, ku b 1] [ku d 1]
  | .ushr d a b q st => uniOp 1 (.uniform q) st [ku a 1, ku b 1] [ku d 1]
  | .usar d a b q st => uniOp 1 (.uniform q) st [ku a 1, ku b 1] [ku d 1]
  | .ushli d a _ st => uniOp 1 .always st [ku a 1] [ku d 1]
  | .ushri d a _ st => uniOp 1 .always st [ku a 1] [ku d 1]
  | .umin d a b q st => uniOp 1 (.uniform q) st [ku a 1, ku b 1] [ku d 1]
  | .uminU d a b q st => uniOp 1 (.uniform q) st [ku a 1, ku b 1] [ku d 1]
  | .umax d a b q st => uniOp 1 (.uniform q) st [ku a 1, ku b 1] [ku d 1]
  | .umaxU d a b q st => uniOp 1 (.uniform q) st [ku a 1, ku b 1] [ku d 1]
  | .usetp d a b _ q st => uniOp 1 (.uniform q) st [ku a 1, ku b 1] [.q d.toNat]
  | .usel d a b m q st => uniOp 1 (.uniform q) st [ku a 1, ku b 1, .q m.toNat] [ku d 1]
  | .umov d a q st => uniOp 1 (.uniform q) st [ku a 1] [ku d 1]
  | .umovi d _ st => uniOp 1 .always st [] [ku d 1]
  | .ului d _ st => uniOp 1 .always st [] [ku d 1]
  | .upopc d a q st => uniOp 1 (.uniform q) st [ku a 1] [ku d 1]
  | .uclz d a q st => uniOp 1 (.uniform q) st [ku a 1] [ku d 1]
  | .ubfe d a b _ q st => uniOp 1 (.uniform q) st [ku a 1, ku b 1] [ku d 1]
  | .ubfi d a b c => uniOp 1 .always 0 [ku a 1, ku b 1, ku c 1] [ku d 1]
  | .umad d a b c => uniOp 1 .always 0 [ku a 1, ku b 1, ku c 1] [ku d 1]
  | .uldW d a _ st => uniOp 0 .always st [ku a 2] [ku d 1]
  | .uldD d a _ st => uniOp 0 .always st [ku a 2] [ku d 2]
  | .ustW d a _ st => uniOp 0 .always st [ku a 2, ku d 1] []
  | .ustD d a _ st => uniOp 0 .always st [ku a 2, ku d 2] []
  | .rfal d v p _ st => uniOp 2 .always st [src v 1, pred p] [ku d 1]
  | .rdl d v b st => uniOp 2 .always st [src v 1, ku b 1] [ku d 1]
  | .vlane d v p m st => uniOp 2 .always st ((if m = 2 then [src v 1] else []) ++ [pred p]) [ku d 1]
  | .uldH d a _ st => uniOp 0 .always st [ku a 2] [ku d 1]
  | .ustH d a _ st => uniOp 0 .always st [ku a 2, ku d 1] []
  | .uldB d a _ st => uniOp 0 .always st [ku a 2] [ku d 1]
  | .ustB d a _ st => uniOp 0 .always st [ku a 2, ku d 1] []
  | .bra q _ => uniOp 0 (.uniform q) 0 [] []
  | .brp p _ _ => uniOp 0 .always 0 [pred p] []
  | .call _ _ => uniOp 0 .always 0 [] []
  | .ret q st => uniOp 0 (.uniform q) st [] []
  | .grow _ => uniOp 0 .always 0 [] []
  | .shrink q st => uniOp 0 (.uniform q) st [] []
  | .ovld d _ st => copyOp 0 .always st [] [ku d 1]
  | .ovcall q _ => uniOp 0 (.uniform q) 0 [] []
  | .ovret q st => uniOp 0 (.uniform q) st [] []
  | .exit q st => uniOp 0 (.uniform q) st [] []
  | .trap _ st => uniOp 0 .always st [ku (0 : BitVec 5) 8] [ku (0 : BitVec 5) 2]
  | .bkpt _ st => uniOp 0 .always st [] []
  | .yield q st => uniOp 0 (.uniform q) st [] []
  | .brx a q st => uniOp 0 (.uniform q) st [ku a 1] []
  | .callx a _ q st => uniOp 0 (.uniform q) st [ku a 1] []
  -- MTMASK, GEOSTG0, GEOSTG1, GEODONE and GEOCNT are read behind the instruction in flight, with variable latency (14 R318; 18 R453)
  | .srd k d r st =>
    uniOp (if r = 0x018 ∨ (0x019 ≤ r ∧ r ≤ 0x01C) then 0 else 2) .always st [] [if k = 1 then src d 1 else ku d 1]
  | .swr d _ st => uniOp 0 .always st [ku d 1] []
  | .tagr d v m st => uniOp 2 .always st (if m = 0 then [src v 1] else []) [ku d 1]
  | .barInit d a b q st => uniOp 0 (.uniform q) st [ku a 2, ku b 1] [ku d 1]
  | .barArv d a _ q st => uniOp 0 (.uniform q) st [ku a 2] [ku d 1]
  | .barWait d a _ q st => uniOp 0 (.uniform q) st [ku a 2, ku d 1] [ku d 1]
  | .barArw d a _ q st => uniOp 0 (.uniform q) st [ku a 2] [ku d 1]
  | .barTest d a j _ q st => uniOp 0 (.uniform q) st ([ku a 2] ++ (if j = 1 then [] else [ku d 1])) [ku d 1]
  | .racq d a q st => uniOp 0 (.uniform q) st [ku a 1] [ku d 1]
  | .rpub d a b q st => uniOp 0 (.uniform q) st [ku a 1, ku b 1] [ku d 1]
  | .rtake d a q st => uniOp 0 (.uniform q) st [ku a 1] [ku d 1]
  | .rrel d a q st => uniOp 0 (.uniform q) st [ku a 1] [ku d 1]
  | .waitc _ _ st => uniOp 0 .always st [] []
  | .fence _ q st => uniOp 0 (.uniform q) st [] []
  | .fencer q st => uniOp 0 (.uniform q) st [] []
  | .mcas d a q st => uniOp 0 (.uniform q) st [ku a 2] [ku d 1]
  | .atomu d a b _ _ => uniOp 0 .always 0 [ku a 2, ku b 1] [ku d 1]
  | .casu d a b c _ => uniOp 0 .always 0 [ku a 2, ku b 1, ku c 1] [ku d 1]
  | .copy a b c _ => copyOp 0 .always 0 [ku a 2, ku b 2, ku c 1] []
  | .copy2d a b c _ => copyOp 0 .always 0 [ku a 2, ku b 2, ku c 3] []
  | .gather a b c _ => copyOp 0 .always 0 [ku a 2, ku b 2, ku c 4] []
  | .scatter a b c _ => copyOp 0 .always 0 [ku a 2, ku b 2, ku c 4] []
  | .fill a b c => copyOp 0 .always 0 [ku a 2, ku b 1, ku c 1] []
  | .copyr a b c _ => copyOp 0 .always 0 [ku a 1, ku b 2, ku c 1] []
  | .mma z a b y _ j => matrixOp ([ku a 4, ku b 4] ++ (if j = 1 then [.z y.toNat] else [])) [.z z.toNat]
  | .hadt z y _ _ => matrixOp [.z y.toNat] [.z z.toNat]
  | .qtile a b y m _ _ => matrixOp ([ku b 4] ++ (if m = 1 then [ku a 3] else [.z y.toNat])) []
  | .zld z a _ => matrixOp [ku a 4] [.z z.toNat]
  | .zst a y => matrixOp [ku a 4, .z y.toNat] []
  | .zsta a y => matrixOp [ku a 4, .z y.toNat] []
  | .zzero z _ => matrixOp [] [.z z.toNat]
  | .zcvt z y _ _ => matrixOp [.z y.toNat] [.z z.toNat]
  | .zmov z y _ => matrixOp [.z y.toNat] [.z z.toNat]
  | .tpref a => matrixOp [ku a 4] []
  | .launch d a q st => uniOp 0 (.uniform q) st [ku a 2] [ku d 1]
  | .cancel d a _ q st => uniOp 0 (.uniform q) st [ku a 2] [ku d 1]
  | .ccwait d a _ q st => uniOp 0 (.uniform q) st [ku a 2] [ku d 1]
  | .alloc d a b q st => uniOp 0 (.uniform q) st [ku a 2, ku b 1] [ku d 2]
  | .free d a b q st => uniOp 0 (.uniform q) st [ku a 2, ku b 2] [ku d 1]
  | .dbell d a b q st => vecOp 0 (.uniform q) st [ku a 1, ku b 1] [ku d 1]
  | .cctl a b _ q st => uniOp 0 (.uniform q) st [ku a 2, ku b 1] []
  | .submissionEntryRead => stepShape
  | .pendingLaunchAdmit => stepShape
  | .heldLaunchRecheck => stepShape
  | .placementOpportunity => stepShape
  | .overlayPlacementLoadDone => stepShape
  | .issueCycle => stepShape
  | .swapidleExpiry => stepShape
  | .groupResume => stepShape
  | .registerLineLoad => stepShape
  | .muIdleEntry => stepShape
  | .muLeaveIdleStart => stepShape
  | .muLeaveIdleDone => stepShape
  | .activityForecastWrite => stepShape
  | .groupEnd => stepShape
  | .unitRetire => stepShape
  | .checkPhaseDone => stepShape
  | .loadDataReturn => stepShape
  | .copyEngineOpComplete => stepShape
  | .copyrSlotAcquire => stepShape
  | .microTileComplete => stepShape
  | .matrixOpComplete => stepShape
  | .epuLaneDecided => stepShape
  | .geometricComplete => stepShape
  | .epuReset => stepShape
  | .muHangReset => stepShape
  | .muResetEnd => stepShape
  | .mcasLocksComplete => stepShape
  | .waitforWalk => stepShape
  | .remoteRequest => stepShape
  | .remoteReply => stepShape
  | .remoteStoreAck => stepShape
  | .faultTicketResponse => stepShape
  | .ticketTableEntry => stepShape
  | .replayNotice => stepShape
  | .tktdone => stepShape
  | .markerReceived => stepShape
  | .flaggedStorePerform => stepShape
  | .markerReport => stepShape
  | .esctimerExpiry => stepShape
  | .planeDead => stepShape
  | .planemapWrite => stepShape
  | .planemapChangeApply => stepShape
  | .podmaskWrite => stepShape
  | .msiArrival => stepShape
  | .arrivalQueueApply => stepShape
  | .notifyArrival => stepShape
  | .arrcmdBind => stepShape
  | .arrcmdUnbind => stepShape
  | .ntbMailboxWrite => stepShape
  | .ntbInboundAccess => stepShape
  | .doorbellMark => stepShape
  | .tailWriteFailed => stepShape
  | .dqEnable => stepShape
  | .atsTranslationRequest => stepShape
  | .endpointMemoryRequest => stepShape
  | .pageRequest => stepShape
  | .prgresp => stepShape
  | .atsInvalidateCompletion => stepShape
  | .atsInvalidateTimeout => stepShape
  | .dpcContainment => stepShape
  | .invalidatePage => stepShape
  | .invalidateRange => stepShape
  | .invalidateJob => stepShape
  | .invalidateAll => stepShape
  | .invalidationComplete => stepShape
  | .migrationStart => stepShape
  | .migrationDrainDone => stepShape
  | .migrationCopyDone => stepShape
  | .groupcmdReissue => stepShape
  | .groupcmdSkip => stepShape
  | .groupcmdLose => stepShape
  | .groupcmdReplay => stepShape
  | .groupcmdStop => stepShape
  | .groupcmdRun => stepShape
  | .svccmdRetry => stepShape
  | .svccmdFail => stepShape
  | .deviceRingRecordWrite => stepShape
  | .tcompl => stepShape
  | .weightSwitch => stepShape
  | .weightStoreInstall => stepShape
  | .weightInstallDone => stepShape
  | .hrateTargetWrite => stepShape
  | .hrateSwitchDone => stepShape
  | .mucapWrite => stepShape
  | .powerOn => stepShape
  | .podElection => stepShape
  | .chunkReceived => stepShape
  | .chipAssignment => stepShape
  | .leaderContact => stepShape
  | .keepaliveSend => stepShape
  | .upstreamSilent => stepShape
  | .correctedError => stepShape
  | .uncorrectableError => stepShape
  | .scrubPass => stepShape
  | .coreFailed => stepShape
  | .l2SliceFailed => stepShape
  | .spdmMeasurementRequest => stepShape
  | .hartMemoryAccess => stepShape
  | .registerWrite => stepShape
  | .accessTakesEffect => stepShape
  | .heapDescriptorLocked => stepShape
  | .epuResetEnd => stepShape
  | .l2SpareTakeoverDone => stepShape
  | .spareCoreDrainDone => stepShape
  | .markerReportArrival => stepShape
  | .portLinkUp => stepShape
  | .dpcRelease => stepShape
  | .powerLoss => stepShape
  | .keepaliveReceived => stepShape
  | .heldChunkReport => stepShape
  | .chunkRerequest => stepShape
  | .recoveryImageAccept => stepShape

end Sys2Proof.Machine
end

