-- ==== Sys2Proof/Machine/Issue.lean ====
section
/-! DEFINITION. Issue: the group at issue, its operands past results in flight, the traps common to all instructions, and the
retirement of an instruction (14 R315 to R320, 10 R219 to R223). -/

namespace Sys2Proof.Machine

/-- The issuing context of an instruction: the state, the group and live slot at issue, the fragment there, the cycle of its
partition, and the operand codes' base. -/
structure Ctx where
  s : State
  key : Nat
  g : Group
  slot : Bool
  f : Entry
  now : Nat
  deriving DecidableEq, Repr

/-- The group at issue: a placed group whose live slot holds a runnable fragment. -/
def issuing (s : State) : Option Ctx :=
  match s.issue with
  | none => none
  | some c =>
    match Assoc.find c.key s.groups with
    | none => none
    | some g =>
      if (g.live c.slot).kind = 1 then
        some { s := s, key := c.key, g := g, slot := c.slot, f := g.live c.slot, now := c.before.cycle }
      else none

/-! ### Reading registers past results in flight (14 R319) -/

/-- The results in flight to a register that have not landed. -/
def Ctx.pending (c : Ctx) (r : Reg) : List Hazard :=
  c.g.hazards.filter (fun h => decide (h.reg = r) && decide (c.now < h.lands))

/-- A number that distinguishes registers, for free choices. -/
def Reg.code : Reg → Nat
  | .v n => n
  | .k n => 20000 + n
  | .p n => 20100 + n
  | .q n => 20200 + n
  | .z n => 20300 + n

/-- The value of a lane line: where results are in flight, each lane receives the value before one of the writes or the result,
a free choice of the device.
DEDUCED: log 15. -/
def Ctx.line (c : Ctx) (n : Nat) : Lanes Word :=
  match c.pending (.v n) with
  | [] => c.g.line n
  | hs =>
    let olds := hs.map (fun h => match h.old with | .line x _ => x | .word x => Lanes.fill x)
    Lanes.ofFn (fun l =>
      let choices := c.g.line n :: olds
      (choices.getD (Config.freeNat c.s.fresh (32 * n + l.val) % choices.length) (c.g.line n))[l])

/-- The tag of a lane line, likewise. -/
def Ctx.tag (c : Ctx) (n : Nat) : BitVec 5 :=
  let cur : BitVec 5 := BitVec.ofNat 5 (c.g.tagByte n).toNat
  match c.pending (.v n) with
  | [] => cur
  | hs =>
    let choices := cur :: hs.map (fun h => match h.old with | .line _ t => BitVec.ofNat 5 t.toNat | .word _ => cur)
    choices.getD (Config.freeNat c.s.fresh (2 ^ 20 + n) % choices.length) cur

/-- A word held by a register other than a lane line, past results in flight. -/
def Ctx.settled (c : Ctx) (r : Reg) (cur : Word) : Word :=
  match c.pending r with
  | [] => cur
  | hs =>
    let choices := cur :: hs.map (fun h => match h.old with | .word x => x | .line _ _ => cur)
    choices.getD (Config.freeNat c.s.fresh (2 ^ 21 + r.code) % choices.length) cur

/-- A predicate past results in flight: each lane's bit is chosen by itself. -/
def Ctx.settledMask (c : Ctx) (r : Reg) (cur : Mask) : Mask :=
  match c.pending r with
  | [] => cur
  | hs =>
    let choices := cur :: hs.map (fun h => match h.old with | .word x => x | .line _ _ => cur)
    maskOf (fun l => (choices.getD (Config.freeNat c.s.fresh (2 ^ 22 + 32 * r.code + l) % choices.length) cur).getLsbD l)

/-- A uniform register. -/
def Ctx.k (c : Ctx) (n : Nat) : Word := c.settled (.k n) (c.g.kreg n)

/-- A uniform register named by a field. -/
def Ctx.kf {w : Nat} (c : Ctx) (x : BitVec w) : Word := c.k x.toNat

/-- A pair of uniform registers as a 64-bit number. -/
def Ctx.kpair {w : Nat} (c : Ctx) (x : BitVec w) : Nat := pairNat (c.k x.toNat) (c.k (x.toNat + 1))

/-- A lane predicate; code 7 means always. -/
def Ctx.p (c : Ctx) (n : Nat) : Mask := if n = 7 then BitVec.allOnes 32 else c.settledMask (.p n) (c.g.preg n)

/-- A uniform predicate; code 3 means always. -/
def Ctx.q (c : Ctx) (n : Nat) : Bool :=
  if n = 3 then true else (c.settled (.q n) (w32 (b2n (c.g.qbit n)))).getLsbD 0

/-- The value of the `i`-th register of a lane operand code (04 R79). -/
def Ctx.val (c : Ctx) (x : BitVec 6) (i : Nat := 0) : Lanes Word :=
  if x.toNat < 48 then c.line (c.g.lbase + x.toNat + i) else Lanes.fill (c.k (x.toNat - 48 + i))

/-- The tag of the `i`-th register of a lane operand code; none for a broadcast operand. -/
def Ctx.tagOf (c : Ctx) (x : BitVec 6) (i : Nat := 0) : Option (BitVec 5) :=
  if x.toNat < 48 then some (c.tag (c.g.lbase + x.toNat + i)) else none

/-- The 64-bit value of a lane operand pair, lane by lane. -/
def Ctx.valPair (c : Ctx) (x : BitVec 6) (l : Fin 32) : Nat := pairNat (c.val x 0)[l] (c.val x 1)[l]

/-- The lanes for which a guard holds, and for a uniform guard whether it holds. -/
def Ctx.guardMask (c : Ctx) : Guard → Mask
  | .lane g => c.p g.toNat
  | _ => BitVec.allOnes 32

/-- Whether a uniform guard holds. -/
def Ctx.guardOn (c : Ctx) : Guard → Bool
  | .uniform q => c.q q.toNat
  | _ => true

/-- ACTIVE (14 R334): the live lanes of the issuing fragment whose guard bit is set. -/
def Ctx.active (c : Ctx) (g : Guard) : Mask := c.f.mask &&& c.guardMask g

/-! ### Traps common to all instructions -/

/-- The registers of the guard (14 R319). -/
def Guard.regs : Guard → List Reg
  | .lane g => if g = 7 then [] else [.p g.toNat]
  | .uniform q => if q = 3 then [] else [.q q.toNat]
  | .always => []

/-- All registers an instruction reads, its guard's included. -/
def Ctx.readRegs (c : Ctx) (sh : Shape) : List Reg :=
  sh.guard.regs ++ sh.reads.flatMap (Operand.regs c.g.lbase)

/-- All registers an instruction writes. -/
def Ctx.writeRegs (c : Ctx) (sh : Shape) : List Reg := sh.writes.flatMap (Operand.regs c.g.lbase)

/-- An illegal-instruction trap. -/
def illegal : Trap := { kind := 0x01 }

/-- A tag trap of CAUSE 0 on a register code. -/
def tagTrap (code : Nat) : Trap := { kind := 0x05, entry := BitVec.ofNat 8 code }

/-- The stall-underrun trap of a read of an unlanded result, with CHK set (14 R319). -/
def Ctx.underrun (c : Ctx) (rs : List Reg) : List Trap :=
  if c.g.chk && rs.any (fun r => !(c.pending r).isEmpty) then [{ kind := 0x04 }] else []

/-- Whether any of the `n` image bytes from an offset lies in a poisoned 128-byte line (13 R306). -/
def Group.imagePoisoned (g : Group) (off n : Nat) : Bool :=
  (List.range ((off % 128 + n + 127) / 128)).any (fun i => Assoc.get false g.imgPoison (off / 128 + i))

/-- A group with the poison of whole image lines cleared. -/
def Group.cleanImage (g : Group) (off n : Nat) : Group :=
  { g with imgPoison := (List.range (n / 128)).foldl (fun t i => Assoc.set false t (off / 128 + i) false) g.imgPoison }

/-- The image offset of a logical lane line. -/
def lineOffset (n : Nat) : Nat := 0x4000 + 128 * (n % 256)

/-- The poison faults of the registers an instruction reads (10 R229), ENTRY the register code: CAUSE 0 for a register awaiting poisoned
data. A register whose line of the image is poisoned awaits poisoned data likewise, but for a geometric operand, whose line is read poisoned
with CAUSE 1; a predicate has no register code.
DEDUCED: log 140. -/
def Ctx.poisonTraps (c : Ctx) (line : BitVec 4) (rs : List Reg) : List Trap :=
  rs.filterMap (fun r =>
    match r with
    | .v n =>
      let e := BitVec.ofNat 8 (n - c.g.lbase)
      if c.g.lbase ≤ n ∧ n < c.g.lbase + 48 ∧ c.g.frec.ppoisv.getLsbD (n - c.g.lbase) = true then some { kind := 0x0F, entry := e }
      else if c.g.imagePoisoned (lineOffset n) 128 then some { kind := 0x0F, cause := line, entry := e } else none
    | .k n =>
      let e := BitVec.ofNat 8 (64 + n)
      if c.g.frec.ppoisk.getLsbD n = true then some { kind := 0x0F, entry := e }
      else if c.g.imagePoisoned 0x100 128 then some { kind := 0x0F, entry := e } else none
    | .p _ => if c.g.imagePoisoned 0x180 128 then some { kind := 0x0F } else none
    | .q _ => if c.g.imagePoisoned 0x180 128 then some { kind := 0x0F } else none
    | .z _ => none)

/-- The tag traps of reserved tags in any lane register that an instruction reads (05 R98).
DESIGN CHOICE: log 121. -/
def Ctx.reservedTags (c : Ctx) (rs : List Reg) : List Trap :=
  rs.filterMap (fun r =>
    match r with
    | .v n => if tagAssigned (c.tag n) then none else some (tagTrap (n - c.g.lbase))
    | _ => none)

/-- The traps that the word and the group's role alone decide (14 R315, R316; 02 R24). -/
def Ctx.wordTraps (c : Ctx) (i : Instr) (sh : Shape) : List Trap :=
  (if i.wellFormed then [] else [illegal]) ++ (if sh.roles.contains c.g.role then [] else [{ kind := 0x02 }])

/-- The traps common to all instructions that depend on registers: stall underrun, reserved tags, poison. -/
def Ctx.sourceTraps (c : Ctx) (sh : Shape) : List Trap :=
  c.underrun (c.readRegs sh) ++ c.reservedTags (c.readRegs sh) ++
    c.poisonTraps (if sh.geo then 1 else 0) (c.readRegs sh)

/-! ### Writing results -/

/-- Results in flight that have not landed by a cycle. -/
def Group.liveHazards (g : Group) (now : Nat) : List Hazard := g.hazards.filter (fun h => decide (now < h.lands))

/-- The cycle at which a result of latency `lat` issued at `now` lands: not before an earlier result to the same register. -/
def Group.landing (g : Group) (r : Reg) (now lat : Nat) : Nat :=
  (g.hazards.filter (fun h => decide (h.reg = r))).foldl (fun a h => max a h.lands) (now + lat)

/-- The results in flight of a group after one more fixed-latency result, to register `r` (14 R318). -/
def Group.inFlight (g : Group) (r : Reg) (now lat : Nat) (old : OldValue) : List Hazard :=
  g.liveHazards now ++ [{ reg := r, lands := g.landing r now lat, old := old }]

/-- Merges new lane values into old ones under a mask. -/
def mergeLanesOf (m : Mask) (new old : Lanes Word) : Lanes Word :=
  Lanes.ofFn (fun l => if m.getLsbD l.val then new[l] else old[l])

/-- A fault record with the poison mark of a window register cleared (10 R229). -/
def Frec.cleanV (r : Frec) (n : Nat) : Frec := { r with ppoisv := BitVec.ofNat 64 (setBits r.ppoisv.toNat n 1 0) }

/-- A fault record with the poison mark of a uniform register cleared. -/
def Frec.cleanK (r : Frec) (n : Nat) : Frec := { r with ppoisk := w32 (setBits r.ppoisk.toNat n 1 0) }

/-- A group with the active lanes of a logical line and its tag written, with a fixed latency. A line overwritten in every lane is
present and loses its poison (04 R75, 10 R229). -/
def Group.writeLine (g : Group) (n : Nat) (m : Mask) (x : Lanes Word) (t : BitVec 5) (now lat : Nat) : Group :=
  { g with
    hazards := g.inFlight (.v n) now lat (.line (g.line n) (g.tagByte n))
    lines := Assoc.set (Lanes.fill 0) g.lines (n % 256) (mergeLanesOf m x (g.line n))
    ltags := Assoc.set 0 g.ltags n (t.zeroExtend 8)
    absent := if m = BitVec.allOnes 32 then g.absent &&& ~~~(BitVec.ofNat 256 (2 ^ (n % 256))) else g.absent
    frec := if m = BitVec.allOnes 32 then g.frec.cleanV (n - g.lbase) else g.frec
    imgPoison := if m = BitVec.allOnes 32 then (g.cleanImage (lineOffset n) 128).imgPoison else g.imgPoison }

/-- A group with a uniform register written, with a fixed latency. -/
def Group.writeK (g : Group) (n : Nat) (x : Word) (now lat : Nat) : Group :=
  { g with
    hazards := g.inFlight (.k n) now lat (.word (g.kreg n))
    k := g.k.setIfInBounds n x
    frec := g.frec.cleanK n }

/-- A group with the active lanes of a lane predicate written, with a fixed latency; code 7 writes nothing. -/
def Group.writeP (g : Group) (n : Nat) (m x : Mask) (now lat : Nat) : Group :=
  if n = 7 then g
  else
    { g with
      hazards := g.inFlight (.p n) now lat (.word (g.preg n))
      p := g.p.setIfInBounds n ((x &&& m) ||| (g.preg n &&& ~~~m)) }

/-- A group with a uniform predicate written, with a fixed latency; code 3 writes nothing. -/
def Group.writeQ (g : Group) (n : Nat) (b : Bool) (now lat : Nat) : Group :=
  if n = 3 then g
  else
    { g with
      hazards := g.inFlight (.q n) now lat (.word (w32 (b2n (g.qbit n))))
      q := if n < 3 then w32 (setBits g.q.toNat n 1 (b2n b)) else g.q }

/-- A group with a uniform register written by an instruction of variable latency: the write is complete. -/
def Group.landK (g : Group) (n : Nat) (x : Word) : Group :=
  { g with
    k := g.k.setIfInBounds n x
    frec := g.frec.cleanK n
    hazards := g.hazards.filter (fun h => decide (h.reg ≠ .k n)) }

/-! ### Retirement -/

/-- The issuing fragment moves past the instruction. -/
def Group.advance (g : Group) (slot : Bool) : Group :=
  g.setLive slot { g.live slot with pc := (g.live slot).pc.next }

/-- What issue leaves on a group: the stall count and the slot that issued last. -/
def Group.issued (g : Group) (slot : Bool) (now stall : Nat) : Group :=
  { g with readyAt := now + 1 + stall, lastSlot := slot, hazards := g.liveHazards now, issues := g.issues + 1 }

/-- A geometric instruction in flight has been followed by a later instruction of its fragment (06 R140). -/
def Group.noteLater (g : Group) (m : Mask) : Group :=
  { g with geoOp := g.geoOp.map (fun o => { o with later := o.later || decide (o.mask &&& m ≠ 0) }) }

/-- The state after an instruction left its group as `g`: the issue ends and one point of free choice has passed. -/
def Ctx.done (c : Ctx) (s : State) (g : Group) (stall : Nat) : State :=
  { s.setGroup c.key ((g.issued c.slot c.now stall).noteLater c.f.mask) with issue := none, fresh := c.s.fresh + 1 }

/-- The state after an instruction that leaves its group as `g` and continues at the next word. -/
def Ctx.retire (c : Ctx) (g : Group) (stall : Nat) : State := c.done c.s (g.advance c.slot) stall

/-- The state after a uniform instruction of variable latency that completes at once: `kd` takes the result. -/
def Ctx.finish (c : Ctx) (s : State) (g : Group) (kd : Nat) (x : Word) (stall : Nat) : State :=
  c.done s ((g.landK kd x).advance c.slot) stall

/-- The registers that a geometric instruction in flight holds busy for writes: its operand block and index (06 R133). -/
def Group.geoHolds (g : Group) : List Reg :=
  match g.geoOp with
  | some o => (List.range o.count).map (fun i => Reg.v (o.base + i)) ++ o.idxLine.toList.map Reg.v
  | none => []

/-- A window instruction waits until every lane-register result in flight has been written (04 R85). -/
def Ctx.lanesInFlight (c : Ctx) : Bool :=
  c.g.busy.any (fun r => match r with | .v _ => true | _ => false) ||
  (c.g.liveHazards c.now).any (fun h => match h.reg with | .v _ => true | _ => false)

/-- Whether a special register is one that its instruction in flight holds back: MTMASK behind the matrix instruction, GEOSTG0,
GEOSTG1, GEODONE and GEOCNT behind the geometric one (18 R453). -/
def Group.sprHeld (g : Group) (r : Nat) : Bool :=
  (decide (r = 0x018) && g.matrixOp.isSome) || ((decide (0x019 ≤ r) && decide (r ≤ 0x01C)) && g.geoOp.isSome)

/-- Whether an instruction is a matrix instruction, which REPLAY can re-execute (10 R226). -/
def isMatrix : Instr → Bool
  | .mma .. | .hadt .. | .qtile .. | .zld .. | .zst .. | .zsta .. | .zzero .. | .zcvt .. | .zmov .. => true
  | _ => false

/-- What the scoreboard holds an instruction back for beyond the registers it names (14 R320): window instructions wait for every lane
result in flight (04 R85), geometric and matrix instructions for the group's own in flight (06 R133, 10 R233), and SRD and SWR for the
instruction in flight that writes their special register (18 R453, R454). -/
def Ctx.holdsBack (c : Ctx) : Instr → Bool
  | .call .. | .callx .. | .grow .. | .ret .. | .shrink .. => c.lanesInFlight
  | .orient2 .. | .orient3 .. | .incirc .. | .insph .. | .segx .. => c.g.geoOp.isSome
  | .srd _ _ r _ => c.g.sprHeld r.toNat
  | .swr _ r _ => decide (r = 0x018 ∨ r = 0x01C) && c.g.sprHeld r.toNat
  | .tagr _ _ m _ => decide (m = 1) && c.g.matrixOp.isSome
  | i => isMatrix i && c.g.matrixOp.isSome

/-- Whether a register's line is present in its cache (04 R75). -/
def Group.present (g : Group) : Reg → Bool
  | .v n => !g.absent.getLsbD (n % 256)
  | .k _ => !g.uAbsent
  | .p _ => !g.pAbsent
  | .q _ => !g.pAbsent
  | .z t => !g.zAbsent.getLsbD t

/-- Whether a register that an instruction writes need not be present: a lane line of which it writes every lane (04 R75). -/
def Ctx.covers (c : Ctx) (sh : Shape) : Reg → Bool
  | .v _ => decide (c.active sh.guard = BitVec.allOnes 32)
  | _ => false

/-- Whether the results in flight to a register land no later than one of latency `lat` that issues now: writes to one register take
effect in issue order, so that a later one waits (14 R319). -/
def Ctx.inOrder (c : Ctx) (lat : Nat) (r : Reg) : Bool := (c.pending r).all (fun h => decide (h.lands ≤ c.now + lat))

/-- Whether the scoreboard lets an instruction issue: no register it names is the destination of a variable-latency
instruction in flight, no register it writes is held by a geometric instruction or receives an earlier result later, and the register lines
that it reads or writes in part are present (14 R319, R320, 04 R75). -/
def Ctx.scoreboard (c : Ctx) (sh : Shape) : Bool :=
  (c.readRegs sh).all (fun r => !c.g.busy.contains r && c.g.present r) &&
  (c.writeRegs sh).all (fun r => !c.g.busy.contains r && c.inOrder sh.latency r && (c.g.present r || c.covers sh r) && !c.g.geoHolds.contains r)

/-- The state when an instruction cannot issue yet (03 R64): the selection is undone, so that its partition selects again in the same
cycle among the others.
DESIGN CHOICE: log 9. -/
def Ctx.withdrawn (c : Ctx) : State :=
  match c.s.issue with
  | some i =>
    let g := { c.g with age := i.age }
    let g1 := if c.slot then { g with skip1 := i.before.cycle + 1 } else { g with skip0 := i.before.cycle + 1 }
    { (c.s.setPart c.g.partNo i.before).setGroup c.key g1 with issue := none }
  | none => c.s

/-- THE MEANING OF AN INSTRUCTION over its parts. While the scoreboard holds it back, it is not issued; nor while `waits` holds, once
no trap stands. The traps of
the word and the role come with any guard; with a clear uniform guard the instruction does nothing beyond its issue and its
stall count; otherwise its own checks `extra` are made with the others, the worst is taken, and with none the effect follows.
DESIGN CHOICE: log 8. DEDUCED: log 16.
DESIGN CHOICE: log 25. -/
def perform (i : Instr) (s : State) (word : Ctx → List Trap) (waits : Ctx → Bool) (extra : Ctx → List Trap)
    (effect : Ctx → State) : Host.Outcome State Fault Refusal :=
  match issuing s with
  | none => .fault .noIssuer
  | some c =>
    let sh := shapeOf c.g i
    if !c.scoreboard sh || c.holdsBack i then .next c.withdrawn
    else
      let early := c.wordTraps i sh ++ word c
      if c.guardOn sh.guard then
        match worst (early ++ c.sourceTraps sh ++ extra c) with
        | some t => .next (groupStop s c.key c.slot c.f.pc t)
        | none => if waits c then .next c.withdrawn else .next (effect c)
      else
        match worst (early ++ c.underrun sh.guard.regs) with
        | some t => .next (groupStop s c.key c.slot c.f.pc t)
        | none => .next (c.retire c.g sh.stall)

/-- An instruction without traps of its own from the word and without waits at issue. -/
def simple (i : Instr) (s : State) (extra : Ctx → List Trap) (effect : Ctx → State) : Host.Outcome State Fault Refusal :=
  perform i s (fun _ => []) (fun _ => false) extra effect

end Sys2Proof.Machine
end

