-- ==== Sys2Proof/Machine/Flags.lean ====
section
/-! DEFINITION. Flag computations: the comparisons of 14 R323, the sticky float flags FEXC (05 R110) and the first-NaN record
FNAN (05 R113). -/

namespace Sys2Proof.Machine

/-- A number of `n` bits read as signed. -/
def signedOf (n x : Nat) : Int := if 2 ^ (n - 1) ≤ x then (x : Int) - 2 ^ n else x

/-- The integer comparisons of CMP and of USETP, on `n`-bit values (14 R323). -/
def compareInt (cc : BitVec 3) (n a b : Nat) : Bool :=
  match cc.toNat with
  | 0 => decide (a = b)
  | 1 => decide (a ≠ b)
  | 2 => decide (signedOf n a < signedOf n b)
  | 3 => decide (signedOf n a ≤ signedOf n b)
  | 4 => decide (signedOf n a > signedOf n b)
  | 5 => decide (signedOf n a ≥ signedOf n b)
  | 6 => decide (a < b)
  | _ => decide (a ≥ b)

/-- The float flags an operation raises (04 R93, 05 R110). -/
structure FloatFlags where
  invalid : Bool := false
  divZero : Bool := false
  overflow : Bool := false
  underflow : Bool := false
  inexact : Bool := false
  deriving DecidableEq, Repr

/-- The union of two flag sets. -/
def FloatFlags.or (a b : FloatFlags) : FloatFlags :=
  { invalid := a.invalid || b.invalid, divZero := a.divZero || b.divZero, overflow := a.overflow || b.overflow
    underflow := a.underflow || b.underflow, inexact := a.inexact || b.inexact }

/-- The FEXC bits of a flag set. -/
def FloatFlags.bits (a : FloatFlags) : BitVec 8 :=
  BitVec.ofNat 8 (b2n a.invalid + 2 * b2n a.divZero + 4 * b2n a.overflow + 8 * b2n a.underflow + 16 * b2n a.inexact)

/-- A group with float flags joined into FEXC, which is sticky. -/
def Group.raise (g : Group) (f : FloatFlags) : Group := { g with fexc := g.fexc ||| f.bits }

/-- FNAN is written only while VALID is clear (04 R94): overlay, word offset, lane, VALID. -/
def Group.noteNan (g : Group) (pc : Pc) (l : Nat) : Group :=
  if g.fnan.getLsbD 31 then g
  else { g with fnan := w32 (pc.low.toNat + 2 ^ 22 * l + 2 ^ 31) }

end Sys2Proof.Machine
end

