-- ==== Sys2Proof/Machine/FloatArith.lean ====
section
/-! DEFINITION. Float formats and exact arithmetic rounded once: layouts (05 R99 to R102), rounding (R107 to R110), NaN origin and
propagation (R111, R112), comparisons (14 R323), square roots and the four transcendental functions (16 R387, R388). -/

namespace Sys2Proof.Machine

/-! ### Formats (05 R99) -/

/-- How a format encodes NaN. -/
inductive NanKind where
  | ieee
  | e4m3
  | none
  deriving DecidableEq, Repr

/-- A float format: exponent and mantissa bits, bias, whether it has infinities, and its NaN codes. -/
structure Fmt where
  eb : Nat
  mb : Nat
  bias : Nat
  inf : Bool
  nan : NanKind
  deriving DecidableEq, Repr

/-- The formats. -/
def fp64 : Fmt := ⟨11, 52, 1023, true, .ieee⟩
def fp32 : Fmt := ⟨8, 23, 127, true, .ieee⟩
def f19 : Fmt := ⟨8, 10, 127, true, .ieee⟩
def bf16 : Fmt := ⟨8, 7, 127, true, .ieee⟩
def fp16 : Fmt := ⟨5, 10, 15, true, .ieee⟩
def e5m2 : Fmt := ⟨5, 2, 15, true, .ieee⟩
def e4m3 : Fmt := ⟨4, 3, 7, false, .e4m3⟩
def e3m2 : Fmt := ⟨3, 2, 3, false, .none⟩
def e2m3 : Fmt := ⟨2, 3, 1, false, .none⟩
def e2m1 : Fmt := ⟨2, 1, 1, false, .none⟩

/-- The float format of a tag. -/
def fmtOf (t : BitVec 5) : Option Fmt :=
  match t.toNat with
  | 0x03 => some fp32 | 0x04 => some fp64 | 0x05 => some bf16 | 0x06 => some fp16 | 0x07 => some e4m3
  | 0x08 => some e5m2 | 0x09 => some e3m2 | 0x0A => some e2m3 | 0x0B => some e2m1 | 0x13 => some f19
  | _ => none

/-- The exponent of a format's smallest subnormal. -/
def Fmt.qmin (f : Fmt) : Int := 1 - (f.bias : Int) - f.mb

/-- The code of the largest finite value. -/
def Fmt.maxCode (f : Fmt) : Nat :=
  match f.nan with
  | .ieee => (2 ^ f.eb - 1) * 2 ^ f.mb - 1
  | .e4m3 => 2 ^ (f.eb + f.mb) - 2
  | .none => 2 ^ (f.eb + f.mb) - 1

/-- A code with its sign bit. -/
def Fmt.signed (f : Fmt) (neg : Bool) (code : Nat) : Nat := b2n neg * 2 ^ (f.eb + f.mb) + code

/-! ### Values -/

/-- The value of a code: a NaN with sign, signalling state and payload (aligned to the 51 payload bits of FP64), an infinity, or
m × 2^e with a sign. -/
inductive FVal where
  | nan (neg sig : Bool) (pay : Nat)
  | inf (neg : Bool)
  | num (neg : Bool) (m : Nat) (e : Int)
  deriving DecidableEq, Repr

/-- Decodes a code. -/
def Fmt.decode (f : Fmt) (x : Nat) : FVal :=
  let neg := decide (bitsOf x (f.eb + f.mb) 1 = 1)
  let ex := bitsOf x f.mb f.eb
  let mt := bitsOf x 0 f.mb
  if f.nan = .ieee ∧ ex = 2 ^ f.eb - 1 then
    if mt = 0 then .inf neg
    else .nan neg (decide (mt < 2 ^ (f.mb - 1))) (mt % 2 ^ (f.mb - 1) * 2 ^ (52 - f.mb))
  else if f.nan = .e4m3 ∧ x % 128 = 127 then .nan neg false 0
  else if ex = 0 then .num neg mt f.qmin
  else .num neg (2 ^ f.mb + mt) (f.qmin + (ex - 1 : Nat))

/-- The code of a quiet NaN with a payload; `narrow` sets payload bit 0 when no kept bit is set (05 R112). Formats without NaN give
+0 (R109). -/
def Fmt.quiet (f : Fmt) (neg : Bool) (pay : Nat) (narrow : Bool) : Nat :=
  match f.nan with
  | .ieee =>
    let kept := pay / 2 ^ (52 - f.mb)
    let kept1 := if narrow && decide (kept = 0) then 1 else kept
    f.signed neg ((2 ^ f.eb - 1) * 2 ^ f.mb + 2 ^ (f.mb - 1) + kept1)
  | .e4m3 => f.signed neg 127
  | .none => 0

/-- The origin hash of an invalid operation (05 R111). -/
def originHash (pcword lane : Nat) : Nat :=
  Nat.xor (pcword * 0x9E3779B1 % 2 ^ 32) (lane * 0x85EBCA6B % 2 ^ 32)

/-- The code of the NaN that an invalid operation produces. -/
def Fmt.invalidNan (f : Fmt) (pcword lane : Nat) : Nat :=
  let h := originHash pcword lane
  match f.nan with
  | .ieee =>
    let pay :=
      if f = fp64 then h
      else if f = fp32 then h % 2 ^ 22
      else if f = f19 then bitsOf h 13 9
      else if f = fp16 then bitsOf h 23 9
      else if f = bf16 then bitsOf h 26 6
      else 0
    (2 ^ f.eb - 1) * 2 ^ f.mb + 2 ^ (f.mb - 1) + pay
  | .e4m3 => 127
  | .none => 0

/-! ### Rounding -/

/-- m / 2^d rounded to an integer in a mode, with a sign, and whether it changed; with `st` the value lies strictly between m and
m + 1. -/
def roundQ (mode : Nat) (neg : Bool) (m : Nat) (d : Int) (st : Bool) : Nat × Bool :=
  if d ≤ 0 then (m * 2 ^ (-d).toNat, st)
  else
    let far := decide ((Nat.log2 m : Int) + 1 < d)
    let sh := d.toNat
    let n0 := if far then 0 else m / 2 ^ sh
    let rem := if far then m else m % 2 ^ sh
    let inexact := decide (rem ≠ 0) || st
    let gt := !far && (decide (2 ^ (sh - 1) < rem) || (decide (rem = 2 ^ (sh - 1)) && st))
    let tie := !far && decide (rem = 2 ^ (sh - 1)) && !st
    let up :=
      match mode with
      | 0 => gt || (tie && decide (n0 % 2 = 1))
      | 1 => false
      | 2 => neg && inexact
      | 3 => !neg && inexact
      | _ => gt || tie
    (n0 + b2n up, inexact)

/-- The code, without sign, that an overflow gives (05 R108). -/
def Fmt.overflowCode (f : Fmt) (mode : Nat) (neg : Bool) : Nat :=
  let infCode := (2 ^ f.eb - 1) * 2 ^ f.mb
  if f.inf then
    match mode with
    | 1 => f.maxCode
    | 2 => if neg then infCode else f.maxCode
    | 3 => if neg then f.maxCode else infCode
    | _ => infCode
  else f.maxCode

/-- Whether a nonzero value is tiny after rounding: rounded without a lower bound on the exponent, it is below the smallest normal
(05 R110). -/
def Fmt.tiny (f : Fmt) (mode : Nat) (neg : Bool) (m : Nat) (e : Int) (st : Bool) : Bool :=
  let top := e + (Nat.log2 m : Int)
  if 1 - (f.bias : Int) ≤ top then false
  else if top < -(f.bias : Int) then true
  else decide ((roundQ mode neg m (top - f.mb - e) st).1 < 2 ^ (f.mb + 1))

/-- Round (05 R108): the magnitude (m, or between m and m + 1 with `st`) × 2^e as a code without sign, and the flags. -/
def Fmt.round (f : Fmt) (mode : Nat) (neg : Bool) (m : Nat) (e : Int) (st : Bool) : Nat × FloatFlags :=
  if m = 0 then (0, {})
  else
    let top := e + (Nat.log2 m : Int)
    let ovf : Nat × FloatFlags := (f.overflowCode mode neg, { overflow := true, inexact := true })
    if (2 ^ f.eb : Int) ≤ top then ovf
    else
      let q := max (top - f.mb) f.qmin
      let r := roundQ mode neg m (q - e) st
      let code := (q - f.qmin).toNat * 2 ^ f.mb + r.1
      if f.maxCode < code then ovf
      else (code, { inexact := r.2, underflow := r.2 && f.tiny mode neg m e st })

/-! ### Results -/

/-- The result of one float element: its code, the flags, and whether it is a NaN produced by an invalid operation (05 R113). -/
structure FRes where
  code : Nat
  flags : FloatFlags := {}
  origin : Bool := false
  deriving DecidableEq, Repr

/-- Where an element is computed: the instruction's PCword and the lane. -/
structure Site where
  pcword : Nat
  lane : Nat
  deriving DecidableEq, Repr

/-- The invalid flag alone. -/
def invalidFlag : FloatFlags := { invalid := true }

/-- An invalid operation. -/
def Fmt.invalid (f : Fmt) (at_ : Site) : FRes :=
  { code := f.invalidNan at_.pcword at_.lane, flags := invalidFlag, origin := true }

/-- A signed zero, and an infinity. -/
def Fmt.zero (f : Fmt) (neg : Bool) : FRes := { code := f.signed neg 0 }
def Fmt.infinity (f : Fmt) (neg : Bool) (flags : FloatFlags := {}) : FRes :=
  { code := f.signed neg ((2 ^ f.eb - 1) * 2 ^ f.mb), flags := flags }

/-- A rounded result with its sign. -/
def Fmt.result (f : Fmt) (mode : Nat) (neg : Bool) (m : Nat) (e : Int) (st : Bool := false) : FRes :=
  let r := f.round mode neg m e st
  { code := f.signed neg r.1, flags := r.2 }

def FVal.isNan : FVal → Bool | .nan _ _ _ => true | _ => false
def FVal.isSig : FVal → Bool | .nan _ s _ => s | _ => false
def FVal.isZero : FVal → Bool | .num _ m _ => decide (m = 0) | _ => false
def FVal.isInf : FVal → Bool | .inf _ => true | _ => false
def FVal.neg : FVal → Bool
  | .nan n _ _ => n
  | .inf n => n
  | .num n _ _ => n
def FVal.negate : FVal → FVal
  | .nan n s p => .nan n s p
  | .inf n => .inf (!n)
  | .num n m e => .num (!n) m e

/-- The first NaN of a list, made quiet, where there is one (05 R112); `extra` adds an invalid operation met beside it. -/
def Fmt.propagate (f : Fmt) (xs : List FVal) (narrow : Bool := false) (extra : Bool := false) : Option FRes :=
  let sig := xs.any FVal.isSig || extra
  xs.findSome? (fun x =>
    match x with
    | .nan n _ p => some { code := f.quiet n p narrow, flags := { invalid := sig }, origin := sig && decide (f.nan ≠ .none) }
    | _ => none)

/-- The value m × 2^e of a number as a signed integer at exponent `q ≤ e`. -/
def FVal.atExp (q : Int) : FVal → Int
  | .num n m e => (if n then -1 else 1) * ((m : Int) * 2 ^ (e - q).toNat)
  | _ => 0

def FVal.exp : FVal → Int | .num _ _ e => e | _ => 0

/-- The product of two values that are not NaN; none for 0 × ∞. -/
def FVal.times (a b : FVal) : Option FVal :=
  let n := Bool.xor a.neg b.neg
  match a, b with
  | .num _ m e, .num _ m' e' => some (.num n (m * m') (e + e'))
  | _, _ => if a.isZero || b.isZero then none else some (.inf n)

/-- The exact sum of values that are not NaN, rounded once: infinities of opposite sign are invalid; a zero sum is −0 when every term
is −0, or under RDN when terms cancel (16 R371, R381). -/
def Fmt.sum (f : Fmt) (mode : Nat) (at_ : Site) (xs : List FVal) : FRes :=
  if xs.any FVal.isInf then
    let pos := xs.any (fun x => x.isInf && !x.neg)
    let neg := xs.any (fun x => x.isInf && x.neg)
    if pos && neg then f.invalid at_ else f.infinity neg
  else
    let q := xs.foldl (fun q x => min q x.exp) 0
    let t := xs.foldl (fun (t : Int) x => t + x.atExp q) 0
    if t = 0 then f.zero (if xs.all FVal.neg then true else decide (mode = 2) && !(xs.all (fun x => !x.neg)))
    else f.result mode (decide (t < 0)) t.natAbs q

/-! ### Two- and three-operand arithmetic (16 R374, R375, R386) -/

/-- FADD and FSUB. -/
def Fmt.add (f : Fmt) (mode : Nat) (at_ : Site) (a b : FVal) : FRes :=
  (f.propagate [a, b]).getD (f.sum mode at_ [a, b])
def Fmt.sub (f : Fmt) (mode : Nat) (at_ : Site) (a b : FVal) : FRes :=
  (f.propagate [a, b]).getD (f.sum mode at_ [a, b.negate])

/-- A value rounded into a format. -/
def Fmt.ofVal (f : Fmt) (mode : Nat) : FVal → FRes
  | .nan n s p => { code := f.quiet n p false, flags := { invalid := s }, origin := s }
  | .inf n => f.infinity n
  | .num n m e => if m = 0 then f.zero n else f.result mode n m e

/-- FMUL. -/
def Fmt.mul (f : Fmt) (mode : Nat) (at_ : Site) (a b : FVal) : FRes :=
  (f.propagate [a, b]).getD (match a.times b with | some p => f.ofVal mode p | none => f.invalid at_)

/-- FMA and its relatives: a × b with its sign changed by `np`, plus d with its sign changed by `nd`. -/
def Fmt.fma (f : Fmt) (mode : Nat) (at_ : Site) (np nd : Bool) (a b d : FVal) : FRes :=
  if a.isNan || b.isNan then (f.propagate [a, b, d]).getD (f.zero false)
  else
    match a.times b with
    | none => (f.propagate [d] false true).getD (f.invalid at_)
    | some p =>
      (f.propagate [d]).getD
        (f.sum mode at_ [if np then p.negate else p, if nd then d.negate else d])

/-- Whether a < b for numbers and infinities, with −0 and +0 equal. -/
def FVal.less : FVal → FVal → Bool
  | .inf n, .inf n' => n && !n'
  | .inf n, _ => n
  | _, .inf n' => !n'
  | .num n m e, .num n' m' e' => decide ((FVal.num n m e).atExp (min e e') < (FVal.num n' m' e').atExp (min e e'))
  | _, _ => false

/-- Whether a is below b with −0 below +0. -/
def FVal.below (a b : FVal) : Bool := a.less b || (!b.less a && a.neg && !b.neg)

/-- FMIN and FMAX. -/
def Fmt.minMax (f : Fmt) (max_ : Bool) (a b : FVal) : FRes :=
  let flags : FloatFlags := { invalid := a.isSig || b.isSig }
  if a.isNan && b.isNan then (f.propagate [a, b]).getD (f.zero false)
  else
    let pick := if a.isNan then b else if b.isNan then a else if max_ then (if a.below b then b else a) else (if b.below a then b else a)
    { f.ofVal 0 pick with flags := flags }

/-- Float comparisons (14 R323), with the flags they raise. -/
def compareFloat (cc : BitVec 3) (a b : FVal) : Bool × FloatFlags :=
  let un := a.isNan || b.isNan
  let r :=
    match cc.toNat with
    | 0 => !un && !a.less b && !b.less a
    | 1 => un || a.less b || b.less a
    | 2 => !un && a.less b
    | 3 => !un && !b.less a
    | 4 => !un && b.less a
    | 5 => !un && !a.less b
    | 6 => un
    | _ => !un
  (r, { invalid := a.isSig || b.isSig || (un && decide (2 ≤ cc.toNat) && decide (cc.toNat ≤ 5)) })

/-- The class mask of FCLASS (16 R376). -/
def Fmt.classify (f : Fmt) (x : FVal) : Nat :=
  match x with
  | .nan _ s _ => if s then 1 else 2
  | .inf n => if n then 0x200 else 4
  | .num n m e =>
    if m = 0 then (if n then 0x40 else 0x20)
    else if decide (m < 2 ^ f.mb) && decide (e = f.qmin) then (if n then 0x80 else 0x10)
    else if n then 0x100 else 8

/-- FSCL: a × 2^b. -/
def Fmt.scale (f : Fmt) (mode : Nat) (a : FVal) (b : Int) : FRes :=
  match a with
  | .num n m e => if m = 0 then f.zero n else f.result mode n m (e + b)
  | x => f.ofVal mode x

/-- FRND: the integral value that the mode selects (16 R390). -/
def Fmt.integral (f : Fmt) (mode : Nat) (a : FVal) : FRes :=
  match a with
  | .num n m e =>
    let r := roundQ mode n m (-e) false
    if 0 ≤ e then f.ofVal mode a
    else if r.1 = 0 then { f.zero n with flags := { inexact := r.2 } }
    else { f.result 0 n r.1 0 with flags := { inexact := r.2 } }
  | x => f.ofVal mode x

/-! ### Conversions -/

/-- A value converted to a float format (05 R108, R109, R112); `narrow` when the target keeps fewer payload bits than the source. -/
def Fmt.convert (f : Fmt) (mode : Nat) (narrow : Bool) (x : FVal) : FRes :=
  match x with
  | .nan n s p =>
    { code := f.quiet n p narrow, flags := { invalid := s || decide (f.nan = .none) }, origin := s && decide (f.nan ≠ .none) }
  | .inf n => if f.inf then f.infinity n else { code := f.signed n f.maxCode, flags := invalidFlag }
  | .num n m e => if m = 0 then f.zero n else f.result mode n m e

/-- Payload bits of a format's NaN. -/
def Fmt.payBits (f : Fmt) : Nat := match f.nan with | .ieee => f.mb - 1 | _ => 0

/-- An integer converted to a float format. -/
def Fmt.ofInt (f : Fmt) (mode : Nat) (x : Int) : FRes :=
  if x = 0 then f.zero false else f.result mode (decide (x < 0)) x.natAbs 0

/-- A float value converted to an integer in a range (05 R108, R109; 16 R403). -/
def toInteger (mode : Nat) (lo hi : Int) (x : FVal) : Int × FloatFlags :=
  match x with
  | .nan _ _ _ => (0, invalidFlag)
  | .inf n => (if n then lo else hi, invalidFlag)
  | .num n m e =>
    if 64 ≤ e + (Nat.log2 m : Int) ∧ m ≠ 0 then (if n then lo else hi, invalidFlag)
    else
      let r := roundQ mode n m (-e) false
      let v : Int := if n then -(r.1 : Int) else r.1
      if v < lo then (lo, invalidFlag)
      else if hi < v then (hi, invalidFlag)
      else (v, { inexact := r.2 })

/-! ### Division and square roots -/

/-- The integer square root, by bits. -/
def isqrt (bits x : Nat) : Nat :=
  (List.range bits).foldl (fun r i => let c := r + 2 ^ (bits - 1 - i); if c * c ≤ x then c else r) 0

/-- 1 / a for a finite nonzero a. -/
def Fmt.recip (f : Fmt) (mode : Nat) (neg : Bool) (m : Nat) (e : Int) : FRes :=
  let k := 128 + Nat.log2 m
  f.result mode neg (2 ^ k / m) (-e - k) (decide (2 ^ k % m ≠ 0))

/-- √a for a finite positive a. -/
def Fmt.root (f : Fmt) (mode : Nat) (m : Nat) (e : Int) : FRes :=
  let k : Nat := if (e - 140) % 2 = 0 then 140 else 141
  let x := m * 2 ^ k
  let r := isqrt 98 x
  f.result mode false r ((e - k) / 2) (decide (r * r ≠ x))

/-- 1 / √a for a finite positive a. -/
def Fmt.rootRecip (f : Fmt) (mode : Nat) (m : Nat) (e : Int) : FRes :=
  let k : Nat := if (e + 200) % 2 = 0 then 200 else 201
  let x := 2 ^ k / m
  let r := isqrt 101 x
  f.result mode false r ((-e - k) / 2) (decide (r * r * m ≠ 2 ^ k))

/-- FRCP, FSQRT and FRSQ with their special inputs (16 R388). -/
def Fmt.frcp (f : Fmt) (mode : Nat) (at_ : Site) (a : FVal) : FRes :=
  match a with
  | .num n m e => if m = 0 then f.infinity n { divZero := true } else f.recip mode n m e
  | .inf n => f.zero n
  | x => (f.propagate [x]).getD (f.invalid at_)
def Fmt.fsqrt (f : Fmt) (mode : Nat) (at_ : Site) (a : FVal) : FRes :=
  match a with
  | .num n m e => if m = 0 then f.zero n else if n then f.invalid at_ else f.root mode m e
  | .inf n => if n then f.invalid at_ else f.infinity false
  | x => (f.propagate [x]).getD (f.invalid at_)
def Fmt.frsq (f : Fmt) (at_ : Site) (a : FVal) : FRes :=
  match a with
  | .num n m e => if m = 0 then f.infinity n { divZero := true } else if n then f.invalid at_ else f.rootRecip 0 m e
  | .inf n => if n then f.invalid at_ else f.zero false
  | x => (f.propagate [x]).getD (f.invalid at_)

/-! ### Transcendental functions, in fixed point with 320 fraction bits (16 R387)

Each function value that is not exact is irrational. It is enclosed to within 2^-280, and a result is the rounding of its enclosure. -/

/-- Fraction bits, and the half width of an enclosure in units of the last bit. -/
abbrev fxBits : Nat := 320
abbrev fxErr : Nat := 2 ^ 40

/-- 1.0, and products and quotients in fixed point. -/
def fxOne : Nat := 2 ^ fxBits
def fxMul (a b : Nat) : Nat := a * b / 2 ^ fxBits

/-- The sum over k < n of z^(2k+1) / (2k+1), with alternating signs for arctan. -/
def fxAtan (z : Nat) (alternate : Bool) (n : Nat) : Nat :=
  let z2 := fxMul z z
  ((List.range n).foldl (fun (acc : Int × Nat) (k : Nat) =>
    let t : Int := ((acc.2 / (2 * k + 1) : Nat) : Int)
    (if alternate && decide (k % 2 = 1) then acc.1 - t else acc.1 + t, fxMul acc.2 z2)) ((0 : Int), z)).1.toNat

/-- ln 2 = 2 artanh(1/3), and π by Machin's formula. -/
def fxLn2 : Nat := 2 * fxAtan (fxOne / 3) false 110
def fxPi : Nat := 16 * fxAtan (fxOne / 5) true 80 - 4 * fxAtan (fxOne / 239) true 30

/-- exp(x) for 0 ≤ x < 1. -/
def fxExp (x : Nat) : Nat :=
  ((List.range 80).foldl (fun (acc : Nat × Nat) k => (acc.1 + acc.2, fxMul acc.2 x / (k + 1))) (0, fxOne)).1

/-- sin(x) and cos(x) for 0 ≤ x < 2. -/
def fxSin (x : Nat) : Nat :=
  ((List.range 50).foldl (fun (acc : Int × Nat) k =>
    (if k % 2 = 1 then acc.1 - (acc.2 : Int) else acc.1 + acc.2, fxMul (fxMul acc.2 x) x / ((2 * k + 2) * (2 * k + 3)))) (0, x)).1.toNat
def fxCos (x : Nat) : Nat :=
  ((List.range 50).foldl (fun (acc : Int × Nat) k =>
    (if k % 2 = 1 then acc.1 - (acc.2 : Int) else acc.1 + acc.2, fxMul (fxMul acc.2 x) x / ((2 * k + 1) * (2 * k + 2)))) (0, fxOne)).1.toNat

/-- The rounding of a positive irrational value known as `x` units of 2^(e - 320). -/
def Fmt.enclosed (f : Fmt) (neg : Bool) (x : Nat) (e : Int) : FRes := f.result 0 neg (x - fxErr) (e - fxBits) true

/-- A number below 2^64 in fixed point; its fraction must fit. -/
def fxOf (m : Nat) (e : Int) : Nat := if 0 ≤ e + fxBits then m * 2 ^ (e + fxBits).toNat else m / 2 ^ (-(e + fxBits)).toNat

/-- FEXP2. -/
def Fmt.fexp2 (f : Fmt) (a : FVal) : FRes :=
  match a with
  | .num n m e =>
    if m = 0 then f.result 0 false 1 0
    else if 10 ≤ e + (Nat.log2 m : Int) then (if n then f.result 0 false 1 (-2000) else f.result 0 false 1 2000)
    else
      let v : Int := (if n then -1 else 1) * (fxOf m e : Int)
      let whole := v / (fxOne : Int)
      let frac := (v % (fxOne : Int)).toNat
      if frac = 0 then f.result 0 false 1 whole else f.enclosed false (fxExp (fxMul frac fxLn2)) whole
  | .inf n => if n then f.zero false else f.infinity false
  | x => (f.propagate [x]).getD (f.zero false)

/-- FLOG2. -/
def Fmt.flog2 (f : Fmt) (at_ : Site) (a : FVal) : FRes :=
  match a with
  | .num n m e =>
    if m = 0 then f.infinity true { divZero := true }
    else if n then f.invalid at_
    else
      let top := Nat.log2 m
      let whole : Int := e + top
      if m = 2 ^ top then f.ofInt 0 whole
      else
        let x := m * 2 ^ (fxBits - top)
        let z := (x - fxOne) * fxOne / (x + fxOne)
        let l := 2 * fxAtan z false 110 * fxOne / fxLn2
        let v : Int := whole * (fxOne : Int) + l
        f.enclosed (decide (v < 0)) v.natAbs 0
  | .inf n => if n then f.invalid at_ else f.infinity false
  | x => (f.propagate [x]).getD (f.zero false)

/-- sin(π × r) for r = x / 2^320 in [0, 2), not a multiple of 1/2: its sign and the fixed-point value. -/
def sinTurn (x : Nat) : Bool × Nat :=
  let half := fxOne / 2
  let neg := decide (fxOne ≤ x)
  let y := x % fxOne
  let z := if y ≤ half then y else fxOne - y
  (neg, if z ≤ half / 2 then fxSin (fxMul z fxPi) else fxCos (fxMul (half - z) fxPi))

/-- FSIN and FCOS of the value in half-turns. -/
def Fmt.circular (f : Fmt) (at_ : Site) (cosine : Bool) (a : FVal) : FRes :=
  match a with
  | .num n m e =>
    let one := f.result 0
    if m = 0 then (if cosine then one false 1 0 else f.zero n)
    else
      -- the position in [0, 2), exactly
      let r : Nat := if 1 ≤ e then 0 else (if -(fxBits : Int) ≤ e then m * 2 ^ (e + fxBits).toNat else 0) % (2 * fxOne)
      let r2 := if n && decide (r ≠ 0) then 2 * fxOne - r else r
      let x := if cosine then (r2 + fxOne / 2) % (2 * fxOne) else r2
      if x % fxOne = 0 then f.zero false
      else if x = fxOne / 2 then one false 1 0
      else if x = fxOne / 2 * 3 then one true 1 0
      else f.enclosed (sinTurn x).1 (sinTurn x).2 0
  | .inf _ => f.invalid at_
  | x => (f.propagate [x]).getD (f.invalid at_)

end Sys2Proof.Machine
end

