-- ==== Sys2Proof/Machine/LaneInt.lean ====
section
/-! DEFINITION. Lane integer, logic, shift, bit-field, move and selection instructions (15 R336 to R351, R363; 16 R399 to R407;
17 R408, R416, R425 to R438; 18 R448, R451, R452, R471). -/

namespace Sys2Proof.Machine

/-! ### Tag rules (05 R98) -/

/-- The tag traps of the `n` registers from an operand code whose tags are not accepted. -/
def Ctx.accept (c : Ctx) (x : BitVec 6) (n : Nat) (ok : BitVec 5 → Bool) : List Trap :=
  (List.range n).filterMap (fun i =>
    match c.tagOf x i with
    | some t => if ok t then none else some (tagTrap (x.toNat + i))
    | none => none)

/-- Bitwise instructions accept every assigned tag. -/
def anyTag (t : BitVec 5) : Bool := tagAssigned t

/-- Integer arithmetic accepts RAW, I32 and U32. -/
def intTag (t : BitVec 5) : Bool := decide (t = tRAW ∨ t = tI32 ∨ t = tU32)

/-- The "A" rule of R399: U32 when vA is a lane register tagged U32, I32 otherwise. -/
def Ctx.tagA (c : Ctx) (a : BitVec 6) : BitVec 5 := if c.tagOf a = some tU32 then tU32 else tI32

/-! ### The lane operations on 32-bit values -/

/-- Position, length and taken length of a bit field (15 R347). -/
def fieldPos (b : Word) : Nat := bitsOf b.toNat 0 5
def fieldLen (b : Word) : Nat := min (min (bitsOf b.toNat 8 6) 32) (32 - fieldPos b)

/-- BFE: the field, zero-extended. -/
def bfe (a b : Word) : Word := w32 (bitsOf a.toNat (fieldPos b) (fieldLen b))

/-- BFE.S: the field, sign-extended. -/
def bfeS (a b : Word) : Word :=
  let e := fieldLen b
  let f := bitsOf a.toNat (fieldPos b) e
  if e > 0 ∧ bitsOf f (e - 1) 1 = 1 then i32 ((f : Int) - 2 ^ e) else w32 f

/-- BFI: `a` inserted into `d` at the field that `b` names (15 R348). -/
def bfi (d a b : Word) : Word :=
  let m := w32 ((2 ^ fieldLen b - 1) * 2 ^ fieldPos b)
  (d &&& ~~~m) ||| ((a <<< fieldPos b) &&& m)

/-- Shifts by bits [7:0] of the amount (18 R448): amounts of 32 and more shift everything out. -/
def shl (a : Word) (s : Nat) : Word := if s < 32 then a <<< s else 0
def shr (a : Word) (s : Nat) : Word := if s < 32 then a >>> s else 0
def sar (a : Word) (s : Nat) : Word := a.sshiftRight (min s 31)

/-- The high words of the products (16 R400). -/
def mulHighS (a b : Word) : Word := i32 (a.toInt * b.toInt / 2 ^ 32)
def mulHighU (a b : Word) : Word := w32 (a.toNat * b.toNat / 2 ^ 32)

/-- The absolute value; 0x80000000 gives itself. -/
def absWord (a : Word) : Word := i32 (Int.natAbs a.toInt)

/-- Signed and unsigned minimum and maximum. -/
def minS (a b : Word) : Word := if a.toInt ≤ b.toInt then a else b
def maxS (a b : Word) : Word := if a.toInt ≤ b.toInt then b else a
def minU (a b : Word) : Word := if a.toNat ≤ b.toNat then a else b
def maxU (a b : Word) : Word := if a.toNat ≤ b.toNat then b else a

/-- Saturating sum and difference (16 R402). -/
def addSat (uns : Bool) (a b : Word) : Word :=
  if uns then w32 (min (a.toNat + b.toNat) (2 ^ 32 - 1)) else i32 (clampInt (-(2 ^ 31)) (2 ^ 31 - 1) (a.toInt + b.toInt))
def subSat (uns : Bool) (a b : Word) : Word :=
  if uns then w32 (a.toNat - b.toNat) else i32 (clampInt (-(2 ^ 31)) (2 ^ 31 - 1) (a.toInt - b.toInt))

/-- Element `i` of `n` bits of a word, read as signed or unsigned. -/
def elemInt (x : Word) (i n : Nat) (uns : Bool) : Int :=
  let v := bitsOf x.toNat (n * i) n
  if !uns && decide (2 ^ (n - 1) ≤ v) then (v : Int) - 2 ^ n else v

/-- The exact sum of the products of `cnt` elements of `n` bits (16 R405). -/
def dotInt (cnt n : Nat) (ua ub : Bool) (a b : Word) : Int :=
  (List.range cnt).foldl (fun acc i => acc + elemInt a i n ua * elemInt b i n ub) 0

/-- One result byte of PSWZ: the pool byte and the operation that a selector byte names (17 R438). -/
def swizzleByte (a b : Word) (c : Nat) : Nat :=
  let pool := a.toNat + 2 ^ 32 * b.toNat
  let x := bitsOf pool (8 * (c % 8)) 8
  match bitsOf c 3 2 with
  | 0 => x
  | 1 => 0
  | 2 => if x ≥ 128 then 255 else 0
  | _ => (List.range 8).foldl (fun acc i => acc + bitsOf x (7 - i) 1 * 2 ^ i) 0

/-- PSWZ: four selected bytes. -/
def swizzle (d a b : Word) : Word :=
  w32 ((List.range 4).foldl (fun acc j => acc + swizzleByte a b (bitsOf d.toNat (8 * j) 8) * 2 ^ (8 * j)) 0)

/-! ### The shapes of lane results -/

/-- A lane result: the window register written, its lane values and its tag. -/
abbrev LaneResult := Nat × Lanes Word × BitVec 5

/-- The group after the results of a fixed-latency lane instruction. -/
def Ctx.writeLanes (c : Ctx) (m : Mask) (lat : Nat) (rs : List LaneResult) : Group :=
  rs.foldl (fun g r => g.writeLine (c.g.lbase + r.1) m r.2.1 r.2.2 c.now lat) c.g

/-- A lane instruction that reads registers and writes lane registers with a fixed latency. -/
def laneInstr (i : Instr) (s : State) (checks : Ctx → List Trap) (res : Ctx → List LaneResult) :
    Host.Outcome State Fault Refusal :=
  simple i s checks (fun c =>
    let sh := shapeOf c.g i
    c.retire (c.writeLanes (c.active sh.guard) sh.latency (res c)) sh.stall)

/-- A two-source bitwise instruction: any tag, result RAW. -/
def bitwise2 (i : Instr) (s : State) (d a b : BitVec 6) (f : Word → Word → Word) : Host.Outcome State Fault Refusal :=
  laneInstr i s (fun c => c.accept a 1 anyTag ++ c.accept b 1 anyTag)
    (fun c => [(d.toNat, Lanes.ofFn (fun l => f (c.val a)[l] (c.val b)[l]), tRAW)])

/-- A one-source bitwise instruction: any tag, result RAW. -/
def bitwise1 (i : Instr) (s : State) (d a : BitVec 6) (f : Word → Word) : Host.Outcome State Fault Refusal :=
  laneInstr i s (fun c => c.accept a 1 anyTag)
    (fun c => [(d.toNat, Lanes.ofFn (fun l => f (c.val a)[l]), tRAW)])

/-- A bitwise instruction that also reads its destination (14 R313). -/
def bitwise3 (i : Instr) (s : State) (d a b : BitVec 6) (f : Word → Word → Word → Word) : Host.Outcome State Fault Refusal :=
  laneInstr i s (fun c => c.accept a 1 anyTag ++ c.accept b 1 anyTag ++ c.accept d 1 anyTag)
    (fun c => [(d.toNat, Lanes.ofFn (fun l => f (c.val d)[l] (c.val a)[l] (c.val b)[l]), tRAW)])

/-- A two-source integer instruction; `tag` gives the result tag. -/
def integer2 (i : Instr) (s : State) (d a b : BitVec 6) (tag : Ctx → BitVec 5) (f : Ctx → Word → Word → Word) :
    Host.Outcome State Fault Refusal :=
  laneInstr i s (fun c => c.accept a 1 intTag ++ c.accept b 1 intTag)
    (fun c => [(d.toNat, Lanes.ofFn (fun l => f c (c.val a)[l] (c.val b)[l]), tag c)])

/-- The two 32-bit results of a 64-bit value per lane, tagged RAW. -/
def pairResult (d : BitVec 6) (f : Fin 32 → Nat) : List LaneResult :=
  [(d.toNat, Lanes.ofFn (fun l => w32 (f l)), tRAW), (d.toNat + 1, Lanes.ofFn (fun l => w32 (f l / 2 ^ 32)), tRAW)]

/-! ### Integer arithmetic (16 R399 to R402) -/

/-- IADD. -/
def execIadd (d a b : BitVec 6) (g st : BitVec 3) (s : State) : Host.Outcome State Fault Refusal :=
  integer2 (.iadd d a b g st) s d a b (fun c => c.tagA a) (fun _ x y => x + y)

/-- ISUB. -/
def execIsub (d a b : BitVec 6) (g st : BitVec 3) (s : State) : Host.Outcome State Fault Refusal :=
  integer2 (.isub d a b g st) s d a b (fun c => c.tagA a) (fun _ x y => x - y)

/-- IADDI. -/
def execIaddi (d a : BitVec 6) (im : BitVec 9) (st : BitVec 3) (s : State) : Host.Outcome State Fault Refusal :=
  laneInstr (.iaddi d a im st) s (fun c => c.accept a 1 intTag)
    (fun c => [(d.toNat, Lanes.ofFn (fun l => (c.val a)[l] + im.signExtend 32), c.tagA a)])

/-- IMUL. -/
def execImul (d a b : BitVec 6) (g st : BitVec 3) (s : State) : Host.Outcome State Fault Refusal :=
  integer2 (.imul d a b g st) s d a b (fun c => c.tagA a) (fun _ x y => x * y)

/-- IMULH. -/
def execImulh (d a b : BitVec 6) (g st : BitVec 3) (s : State) : Host.Outcome State Fault Refusal :=
  integer2 (.imulh d a b g st) s d a b (fun _ => tI32) (fun _ x y => mulHighS x y)

/-- IMULH.U. -/
def execImulhU (d a b : BitVec 6) (g st : BitVec 3) (s : State) : Host.Outcome State Fault Refusal :=
  integer2 (.imulhU d a b g st) s d a b (fun _ => tU32) (fun _ x y => mulHighU x y)

/-- IMAD. -/
def execImad (d a b : BitVec 6) (g st : BitVec 3) (s : State) : Host.Outcome State Fault Refusal :=
  laneInstr (.imad d a b g st) s (fun c => c.accept a 1 intTag ++ c.accept b 1 intTag ++ c.accept d 1 intTag)
    (fun c => [(d.toNat, Lanes.ofFn (fun l => (c.val a)[l] * (c.val b)[l] + (c.val d)[l]), c.tagA a)])

/-- IMIN. -/
def execImin (d a b : BitVec 6) (g st : BitVec 3) (s : State) : Host.Outcome State Fault Refusal :=
  integer2 (.imin d a b g st) s d a b (fun _ => tI32) (fun _ x y => minS x y)

/-- IMIN.U. -/
def execIminU (d a b : BitVec 6) (g st : BitVec 3) (s : State) : Host.Outcome State Fault Refusal :=
  integer2 (.iminU d a b g st) s d a b (fun _ => tU32) (fun _ x y => minU x y)

/-- IMAX. -/
def execImax (d a b : BitVec 6) (g st : BitVec 3) (s : State) : Host.Outcome State Fault Refusal :=
  integer2 (.imax d a b g st) s d a b (fun _ => tI32) (fun _ x y => maxS x y)

/-- IMAX.U. -/
def execImaxU (d a b : BitVec 6) (g st : BitVec 3) (s : State) : Host.Outcome State Fault Refusal :=
  integer2 (.imaxU d a b g st) s d a b (fun _ => tU32) (fun _ x y => maxU x y)

/-- IABS. -/
def execIabs (d a : BitVec 6) (g st : BitVec 3) (s : State) : Host.Outcome State Fault Refusal :=
  laneInstr (.iabs d a g st) s (fun c => c.accept a 1 intTag)
    (fun c => [(d.toNat, Lanes.ofFn (fun l => absWord (c.val a)[l]), tI32)])

/-- IADD.SAT: the tag of vA selects the arithmetic. -/
def execIaddSat (d a b : BitVec 6) (g st : BitVec 3) (s : State) : Host.Outcome State Fault Refusal :=
  integer2 (.iaddSat d a b g st) s d a b (fun c => c.tagA a) (fun c x y => addSat (decide (c.tagA a = tU32)) x y)

/-- ISUB.SAT. -/
def execIsubSat (d a b : BitVec 6) (g st : BitVec 3) (s : State) : Host.Outcome State Fault Refusal :=
  integer2 (.isubSat d a b g st) s d a b (fun c => c.tagA a) (fun c x y => subSat (decide (c.tagA a = tU32)) x y)

/-- The tags IDOT4 and IDOT8 accept on vA and vB: the signed format, the unsigned format, RAW. -/
def dotTag (sgn uns : BitVec 5) (t : BitVec 5) : Bool := decide (t = tRAW ∨ t = sgn ∨ t = uns)

/-- An integer dot product with accumulation (16 R405). -/
def idot (i : Instr) (s : State) (d a b : BitVec 6) (cnt n : Nat) (sgn uns : BitVec 5) : Host.Outcome State Fault Refusal :=
  laneInstr i s (fun c => c.accept a 1 (dotTag sgn uns) ++ c.accept b 1 (dotTag sgn uns) ++ c.accept d 1 intTag)
    (fun c => [(d.toNat, Lanes.ofFn (fun l => (c.val d)[l] +
      i32 (dotInt cnt n (decide (c.tagOf a = some uns)) (decide (c.tagOf b = some uns)) (c.val a)[l] (c.val b)[l])), tI32)])

/-- IDOT4. -/
def execIdot4 (d a b : BitVec 6) (g st : BitVec 3) (s : State) : Host.Outcome State Fault Refusal :=
  idot (.idot4 d a b g st) s d a b 4 8 tI8 tU8

/-- IDOT8. -/
def execIdot8 (d a b : BitVec 6) (g st : BitVec 3) (s : State) : Host.Outcome State Fault Refusal :=
  idot (.idot8 d a b g st) s d a b 8 4 tI4 tU4

/-! ### 64-bit and address arithmetic -/

/-- ADD64 (15 R337). -/
def execAdd64 (d a b : BitVec 6) (g st : BitVec 3) (s : State) : Host.Outcome State Fault Refusal :=
  laneInstr (.add64 d a b g st) s (fun c => c.accept a 2 intTag ++ c.accept b 2 intTag)
    (fun c => pairResult d (fun l => c.valPair a l + c.valPair b l))

/-- A scaled address: the base pair plus `scale` times an unsigned index (17 R416). -/
def lea (i : Instr) (s : State) (d a b : BitVec 6) (scale : Nat) : Host.Outcome State Fault Refusal :=
  laneInstr i s (fun c => c.accept a 2 intTag ++ c.accept b 1 intTag)
    (fun c => pairResult d (fun l => c.valPair a l + scale * ((c.val b)[l]).toNat))

/-- LEA. -/
def execLea (d a b : BitVec 6) (g st : BitVec 3) (s : State) : Host.Outcome State Fault Refusal :=
  lea (.lea d a b g st) s d a b 4

/-- LEA.D. -/
def execLeaD (d a b : BitVec 6) (g st : BitVec 3) (s : State) : Host.Outcome State Fault Refusal :=
  lea (.leaD d a b g st) s d a b 8

/-! ### Logic, shifts and bit fields -/

/-- AND. -/
def execAnd (d a b : BitVec 6) (g st : BitVec 3) (s : State) : Host.Outcome State Fault Refusal :=
  bitwise2 (.and d a b g st) s d a b (· &&& ·)

/-- OR. -/
def execOr (d a b : BitVec 6) (g st : BitVec 3) (s : State) : Host.Outcome State Fault Refusal :=
  bitwise2 (.or d a b g st) s d a b (· ||| ·)

/-- XOR. -/
def execXor (d a b : BitVec 6) (g st : BitVec 3) (s : State) : Host.Outcome State Fault Refusal :=
  bitwise2 (.xor d a b g st) s d a b (· ^^^ ·)

/-- NOT. -/
def execNot (d a : BitVec 6) (g st : BitVec 3) (s : State) : Host.Outcome State Fault Refusal :=
  bitwise1 (.not d a g st) s d a (fun x => ~~~x)

/-- ANDI. -/
def execAndi (d a : BitVec 6) (im : BitVec 9) (st : BitVec 3) (s : State) : Host.Outcome State Fault Refusal :=
  bitwise1 (.andi d a im st) s d a (fun x => x &&& im.zeroExtend 32)

/-- ORI. -/
def execOri (d a : BitVec 6) (im : BitVec 9) (st : BitVec 3) (s : State) : Host.Outcome State Fault Refusal :=
  bitwise1 (.ori d a im st) s d a (fun x => x ||| im.zeroExtend 32)

/-- XORI. -/
def execXori (d a : BitVec 6) (im : BitVec 9) (st : BitVec 3) (s : State) : Host.Outcome State Fault Refusal :=
  bitwise1 (.xori d a im st) s d a (fun x => x ^^^ im.zeroExtend 32)

/-- SHL. -/
def execShl (d a b : BitVec 6) (g st : BitVec 3) (s : State) : Host.Outcome State Fault Refusal :=
  bitwise2 (.shl d a b g st) s d a b (fun x y => shl x (bitsOf y.toNat 0 8))

/-- SHR. -/
def execShr (d a b : BitVec 6) (g st : BitVec 3) (s : State) : Host.Outcome State Fault Refusal :=
  bitwise2 (.shr d a b g st) s d a b (fun x y => shr x (bitsOf y.toNat 0 8))

/-- SAR. -/
def execSar (d a b : BitVec 6) (g st : BitVec 3) (s : State) : Host.Outcome State Fault Refusal :=
  bitwise2 (.sar d a b g st) s d a b (fun x y => sar x (bitsOf y.toNat 0 8))

/-- SHLI. -/
def execShli (d a : BitVec 6) (im : BitVec 5) (st : BitVec 3) (s : State) : Host.Outcome State Fault Refusal :=
  bitwise1 (.shli d a im st) s d a (fun x => shl x im.toNat)

/-- SHRI. -/
def execShri (d a : BitVec 6) (im : BitVec 5) (st : BitVec 3) (s : State) : Host.Outcome State Fault Refusal :=
  bitwise1 (.shri d a im st) s d a (fun x => shr x im.toNat)

/-- SARI. -/
def execSari (d a : BitVec 6) (im : BitVec 5) (st : BitVec 3) (s : State) : Host.Outcome State Fault Refusal :=
  bitwise1 (.sari d a im st) s d a (fun x => sar x im.toNat)

/-- POPC. -/
def execPopc (d a : BitVec 6) (g st : BitVec 3) (s : State) : Host.Outcome State Fault Refusal :=
  bitwise1 (.popc d a g st) s d a (fun x => w32 (popcount x))

/-- CLZ. -/
def execClz (d a : BitVec 6) (g st : BitVec 3) (s : State) : Host.Outcome State Fault Refusal :=
  bitwise1 (.clz d a g st) s d a (fun x => w32 (leadingZeros x))

/-- BREV. -/
def execBrev (d a : BitVec 6) (g st : BitVec 3) (s : State) : Host.Outcome State Fault Refusal :=
  bitwise1 (.brev d a g st) s d a bitReverse

/-- BFE. -/
def execBfe (d a b : BitVec 6) (g st : BitVec 3) (s : State) : Host.Outcome State Fault Refusal :=
  bitwise2 (.bfe d a b g st) s d a b bfe

/-- BFE.S. -/
def execBfeS (d a b : BitVec 6) (g st : BitVec 3) (s : State) : Host.Outcome State Fault Refusal :=
  bitwise2 (.bfeS d a b g st) s d a b bfeS

/-- BFI. -/
def execBfi (d a b : BitVec 6) (g st : BitVec 3) (s : State) : Host.Outcome State Fault Refusal :=
  bitwise3 (.bfi d a b g st) s d a b bfi

/-- PSWZ. -/
def execPswz (d a b : BitVec 6) (g st : BitVec 3) (s : State) : Host.Outcome State Fault Refusal :=
  bitwise3 (.pswz d a b g st) s d a b swizzle

/-! ### Moves and selection -/

/-- MOV: the tag of the source; RAW for a broadcast (17 R425). -/
def execMov (d a : BitVec 6) (g st : BitVec 3) (s : State) : Host.Outcome State Fault Refusal :=
  laneInstr (.mov d a g st) s (fun c => c.accept a 1 anyTag)
    (fun c => [(d.toNat, c.val a, (c.tagOf a).getD tRAW)])

/-- MOVI (17 R426). -/
def execMovi (d : BitVec 6) (im : BitVec 15) (st : BitVec 3) (s : State) : Host.Outcome State Fault Refusal :=
  laneInstr (.movi d im st) s (fun _ => []) (fun _ => [(d.toNat, Lanes.fill (im.signExtend 32), tRAW)])

/-- SEL: the tag is that of the operand selected in the lowest active lane (18 R451). -/
def execSel (d a b : BitVec 6) (m st : BitVec 3) (s : State) : Host.Outcome State Fault Refusal :=
  laneInstr (.sel d a b m st) s (fun c => c.accept a 1 anyTag ++ c.accept b 1 anyTag)
    (fun c =>
      let p := c.p m.toNat
      let low := lowestLane (c.active .always)
      let t := if low < 32 ∧ p.getLsbD low = false then c.tagOf b else c.tagOf a
      [(d.toNat, Lanes.ofFn (fun l => if p.getLsbD l.val then (c.val a)[l] else (c.val b)[l]), t.getD tRAW)])

/-- The source lane that SLANE names for lane `l` (18 R452), as an integer. -/
def slaneSource (m : BitVec 3) (act : Mask) (l : Nat) (b : Word) : Int :=
  let x := bitsOf b.toNat 0 6
  match m.toNat with
  | 0 => (x % 32 : Nat)
  | 1 => (l : Int) + (if x ≥ 32 then (x : Int) - 64 else x)
  | 2 =>
    let as := lanesOf act
    (as.getD ((as.idxOf l + x % 32) % as.length) l : Nat)
  | _ => (Nat.xor l (x % 32) : Nat)

/-- SLANE: each active lane takes the value of a lane of ACTIVE, or keeps its own source value. -/
def execSlane (d a b : BitVec 6) (m st : BitVec 3) (s : State) : Host.Outcome State Fault Refusal :=
  laneInstr (.slane d a b m st) s (fun c => c.accept a 1 anyTag ++ c.accept b 1 anyTag)
    (fun c =>
      let act := c.active .always
      [(d.toNat, Lanes.ofFn (fun l =>
        let src := slaneSource m act l.val (c.val b)[l]
        if 0 ≤ src ∧ src ≤ 31 ∧ act.getLsbD src.toNat = true then lane (c.val a) src.toNat else (c.val a)[l]),
        (c.tagOf a).getD tRAW)])

/-! ### Comparison into a predicate (16 R407) -/

/-- A comparison instruction: each active lane's truth goes to the predicate, the other bits stay. -/
def compareInstr (i : Instr) (s : State) (p : BitVec 3) (checks : Ctx → List Trap) (f : Ctx → Fin 32 → Bool) :
    Host.Outcome State Fault Refusal :=
  simple i s checks (fun c =>
    let sh := shapeOf c.g i
    let truth := maskOf (fun l => if h : l < 32 then f c ⟨l, h⟩ else false)
    c.retire (c.g.writeP p.toNat (c.active sh.guard) truth c.now sh.latency) sh.stall)

/-- ITEST. -/
def execItest (p cc : BitVec 3) (a b : BitVec 6) (g st : BitVec 3) (s : State) : Host.Outcome State Fault Refusal :=
  compareInstr (.itest p cc a b g st) s p (fun c => c.accept a 1 intTag ++ c.accept b 1 intTag)
    (fun c l => compareInt cc 32 ((c.val a)[l]).toNat ((c.val b)[l]).toNat)

/-- ITEST.D. -/
def execItestD (p cc : BitVec 3) (a b : BitVec 6) (g st : BitVec 3) (s : State) : Host.Outcome State Fault Refusal :=
  compareInstr (.itestD p cc a b g st) s p (fun c => c.accept a 2 intTag ++ c.accept b 2 intTag)
    (fun c l => compareInt cc 64 (c.valPair a l) (c.valPair b l))

end Sys2Proof.Machine
end

