-- ==== Sys2Proof/Machine/Float.lean ====
section
/-! DEFINITION. Lane float instructions and conversions (16 R370 to R381, R386 to R392, R403, R404; 18 R460). -/

namespace Sys2Proof.Machine

/-! ### Elements (05 R102) -/

/-- Bits that one element of a format takes in a lane value. -/
def elemBits (t : BitVec 5) : Nat :=
  match t.toNat with
  | 0x04 => 64
  | 0x05 => 16 | 0x06 => 16 | 0x12 => 16
  | 0x07 => 8 | 0x08 => 8 | 0x09 => 8 | 0x0A => 8 | 0x0C => 8 | 0x0D => 8
  | 0x0B => 4 | 0x0E => 4 | 0x0F => 4 | 0x10 => 4
  | 0x11 => 2
  | _ => 32

/-- The code of an element in its container: F19 drops container bits [12:0] (05 R100), 6-bit formats bits [7:6]. -/
def elemCode (t : BitVec 5) (v i : Nat) : Nat :=
  let x := bitsOf v (elemBits t * i) (elemBits t)
  if t = tF19 then x / 2 ^ 13 else if t = tE3M2 ∨ t = tE2M3 then x % 64 else x

/-- A code in its container, at element position `i`. -/
def elemPlace (t : BitVec 5) (i code : Nat) : Nat := (if t = tF19 then code * 2 ^ 13 else code) * 2 ^ (elemBits t * i)

/-- Elements of a lane float operand: two of a 16-bit format, otherwise one. -/
def floatElems (t : BitVec 5) : Nat := if t = tBF16 ∨ t = tFP16 then 2 else 1

/-- The formats of float arithmetic. -/
def arithTag (t : BitVec 5) : Bool := decide (t = tFP64 ∨ t = tFP32 ∨ t = tF19 ∨ t = tBF16 ∨ t = tFP16)
def wideTag (t : BitVec 5) : Bool := decide (t = tFP64 ∨ t = tFP32 ∨ t = tF19)
def onlyFp32 (t : BitVec 5) : Bool := decide (t = tFP32)

/-! ### The frame of a float instruction (16 R370 to R372) -/

/-- The operating format: the tag of the first lane register among the sources, in the order A, B, vD; FP32 when every source is
broadcast (04 R79). -/
def Ctx.opFormat (c : Ctx) (srcs : List (BitVec 6)) : BitVec 5 := (srcs.findSome? (fun x => c.tagOf x)).getD tFP32

/-- Registers per operand of a format. -/
def regsOf (t : BitVec 5) : Nat := if t = tFP64 then 2 else 1

/-- The traps of a float instruction on its sources: each carries the operating format, which is one the entry lists; pair codes are
even. -/
def Ctx.floatTraps (c : Ctx) (srcs pairs : List (BitVec 6)) (ok : BitVec 5 → Bool) : List Trap :=
  let t := c.opFormat srcs
  if ok t then
    (if t = tFP64 ∧ pairs.any (fun x => decide (x.toNat % 2 = 1)) = true then [illegal] else []) ++
    srcs.flatMap (fun x => c.accept x (regsOf t) (fun u => decide (u = t)))
  else
    match srcs.find? (fun x => decide (x.toNat < 48)) with
    | some x => [tagTrap x.toNat]
    | none => []

/-- Lane `l`'s value of a source of a format: a word, or a pair for FP64. -/
def Ctx.floatVal (c : Ctx) (t : BitVec 5) (x : BitVec 6) (l : Nat) : Nat :=
  if t = tFP64 then pairNat (lane (c.val x 0) l) (lane (c.val x 1) l) else (lane (c.val x) l).toNat

/-- Where a lane's element is computed. -/
def Ctx.site (c : Ctx) (l : Nat) : Site := { pcword := c.f.pc.word.toNat, lane := l }

/-- The outcome of a float instruction in one lane: the value written, the flags, and whether a NaN was produced by an invalid
operation. -/
structure LaneRes where
  lane : Nat
  value : Nat
  flags : FloatFlags
  origin : Bool
  deriving DecidableEq, Repr

/-- One lane's elements put together. -/
def packLane (t : BitVec 5) (l : Nat) (rs : List FRes) : LaneRes :=
  { lane := l
    value := (rs.mapIdx (fun i r => elemPlace t i r.code)).foldl (· + ·) 0
    flags := rs.foldl (fun f r => f.or r.flags) {}
    origin := rs.any (fun r => r.origin) }

/-- The group with the flags and FNAN of a float instruction recorded (05 R110, R113). -/
def Ctx.noteFloat (c : Ctx) (g : Group) (rs : List LaneRes) : Group :=
  let g1 := rs.foldl (fun g r => g.raise r.flags) g
  match rs.find? (fun r => r.origin) with
  | some r => g1.noteNan c.f.pc r.lane
  | none => g1

/-- Bits [32j + 31 : 32j] of the lanes' values as a lane line. -/
def laneWords (rs : List LaneRes) (j : Nat) : Lanes Word :=
  Lanes.ofFn (fun l => match rs.find? (fun r => decide (r.lane = l.val)) with | some r => w32 (r.value / 2 ^ (32 * j)) | none => 0)

/-- The state with the vector pipes of the group's partition taken by an FP64 form (16 R372). -/
def Ctx.occupy (c : Ctx) (t : BitVec 5) : State :=
  if t = tFP64 then c.s.setPart c.g.partNo { c.s.part c.g.partNo with vecBusy := c.now + 4 } else c.s

/-- A lane float instruction that writes its operating format: `f` gives each element from the element codes of the sources. -/
def floatInstr (i : Instr) (s : State) (d : BitVec 6) (srcs : List (BitVec 6)) (ok : BitVec 5 → Bool)
    (f : Fmt → Nat → Site → List Nat → FRes) : Host.Outcome State Fault Refusal :=
  simple i s (fun c => c.floatTraps srcs (d :: srcs) ok) (fun c =>
    let sh := shapeOf c.g i
    let t := c.opFormat srcs
    let act := c.active sh.guard
    let fm := (fmtOf t).getD fp32
    let rs := (lanesOf act).map (fun l =>
      packLane t l ((List.range (floatElems t)).map (fun e =>
        f fm c.g.rmode (c.site l) (srcs.map (fun x => elemCode t (c.floatVal t x l) e)))))
    let outs := (List.range (regsOf t)).map (fun j => (d.toNat + j, laneWords rs j, t))
    c.done (c.occupy t) ((c.noteFloat (c.writeLanes act sh.latency outs) rs).advance c.slot) sh.stall)

/-- Operations on one, two or three decoded values. -/
def on1 (f : Fmt → Nat → Site → FVal → FRes) (fm : Fmt) (mode : Nat) (at_ : Site) (xs : List Nat) : FRes :=
  f fm mode at_ (fm.decode (xs.getD 0 0))
def on2 (f : Fmt → Nat → Site → FVal → FVal → FRes) (fm : Fmt) (mode : Nat) (at_ : Site) (xs : List Nat) : FRes :=
  f fm mode at_ (fm.decode (xs.getD 0 0)) (fm.decode (xs.getD 1 0))
def on3 (f : Fmt → Nat → Site → FVal → FVal → FVal → FRes) (fm : Fmt) (mode : Nat) (at_ : Site) (xs : List Nat) : FRes :=
  f fm mode at_ (fm.decode (xs.getD 0 0)) (fm.decode (xs.getD 1 0)) (fm.decode (xs.getD 2 0))

/-! ### Arithmetic -/

/-- FADD (16 R374). -/
def execFadd (d a b : BitVec 6) (g st : BitVec 3) (s : State) : Host.Outcome State Fault Refusal :=
  floatInstr (.fadd d a b g st) s d [a, b] arithTag (on2 Fmt.add)

/-- FSUB (16 R374). -/
def execFsub (d a b : BitVec 6) (g st : BitVec 3) (s : State) : Host.Outcome State Fault Refusal :=
  floatInstr (.fsub d a b g st) s d [a, b] arithTag (on2 Fmt.sub)

/-- FMUL (16 R374). -/
def execFmul (d a b : BitVec 6) (g st : BitVec 3) (s : State) : Host.Outcome State Fault Refusal :=
  floatInstr (.fmul d a b g st) s d [a, b] arithTag (on2 Fmt.mul)

/-- FMA (16 R386). -/
def execFma (d a b : BitVec 6) (g st : BitVec 3) (s : State) : Host.Outcome State Fault Refusal :=
  floatInstr (.fma d a b g st) s d [a, b, d] arithTag (on3 (fun f m x => f.fma m x false false))

/-- FMS (16 R386). -/
def execFms (d a b : BitVec 6) (g st : BitVec 3) (s : State) : Host.Outcome State Fault Refusal :=
  floatInstr (.fms d a b g st) s d [a, b, d] arithTag (on3 (fun f m x => f.fma m x false true))

/-- FNMA (16 R386). -/
def execFnma (d a b : BitVec 6) (g st : BitVec 3) (s : State) : Host.Outcome State Fault Refusal :=
  floatInstr (.fnma d a b g st) s d [a, b, d] arithTag (on3 (fun f m x => f.fma m x true false))

/-- FMIN (16 R375). -/
def execFmin (d a b : BitVec 6) (g st : BitVec 3) (s : State) : Host.Outcome State Fault Refusal :=
  floatInstr (.fmin d a b g st) s d [a, b] arithTag (on2 (fun f _ _ => f.minMax false))

/-- FMAX (16 R375). -/
def execFmax (d a b : BitVec 6) (g st : BitVec 3) (s : State) : Host.Outcome State Fault Refusal :=
  floatInstr (.fmax d a b g st) s d [a, b] arithTag (on2 (fun f _ _ => f.minMax true))

/-- FABS (16 R373). -/
def execFabs (d a : BitVec 6) (g st : BitVec 3) (s : State) : Host.Outcome State Fault Refusal :=
  floatInstr (.fabs d a g st) s d [a] arithTag (fun f _ _ xs => { code := xs.getD 0 0 % 2 ^ (f.eb + f.mb) })

/-- FNEG (16 R373). -/
def execFneg (d a : BitVec 6) (g st : BitVec 3) (s : State) : Host.Outcome State Fault Refusal :=
  floatInstr (.fneg d a g st) s d [a] arithTag (fun f _ _ xs =>
    { code := f.signed (decide (bitsOf (xs.getD 0 0) (f.eb + f.mb) 1 = 0)) (xs.getD 0 0 % 2 ^ (f.eb + f.mb)) })

/-- FRCP (16 R387). -/
def execFrcp (d a : BitVec 6) (g st : BitVec 3) (s : State) : Host.Outcome State Fault Refusal :=
  floatInstr (.frcp d a g st) s d [a] wideTag (on1 Fmt.frcp)

/-- FSQRT (16 R387). -/
def execFsqrt (d a : BitVec 6) (g st : BitVec 3) (s : State) : Host.Outcome State Fault Refusal :=
  floatInstr (.fsqrt d a g st) s d [a] wideTag (on1 Fmt.fsqrt)

/-- FRSQ (16 R387). -/
def execFrsq (d a : BitVec 6) (g st : BitVec 3) (s : State) : Host.Outcome State Fault Refusal :=
  floatInstr (.frsq d a g st) s d [a] onlyFp32 (on1 (fun f _ => f.frsq))

/-- FEXP2 (16 R387). -/
def execFexp2 (d a : BitVec 6) (g st : BitVec 3) (s : State) : Host.Outcome State Fault Refusal :=
  floatInstr (.fexp2 d a g st) s d [a] onlyFp32 (on1 (fun f _ _ => f.fexp2))

/-- FLOG2 (16 R387). -/
def execFlog2 (d a : BitVec 6) (g st : BitVec 3) (s : State) : Host.Outcome State Fault Refusal :=
  floatInstr (.flog2 d a g st) s d [a] onlyFp32 (on1 (fun f _ => f.flog2))

/-- FSIN (16 R387). -/
def execFsin (d a : BitVec 6) (g st : BitVec 3) (s : State) : Host.Outcome State Fault Refusal :=
  floatInstr (.fsin d a g st) s d [a] onlyFp32 (on1 (fun f _ x => f.circular x false))

/-- FCOS (16 R387). -/
def execFcos (d a : BitVec 6) (g st : BitVec 3) (s : State) : Host.Outcome State Fault Refusal :=
  floatInstr (.fcos d a g st) s d [a] onlyFp32 (on1 (fun f _ x => f.circular x true))

/-! ### Comparison, class, scaling -/

/-- FTEST (16 R392). -/
def execFtest (p cc : BitVec 3) (a b : BitVec 6) (g st : BitVec 3) (s : State) : Host.Outcome State Fault Refusal :=
  simple (.ftest p cc a b g st) s (fun c => c.floatTraps [a, b] [a, b] wideTag) (fun c =>
    let sh := shapeOf c.g (.ftest p cc a b g st)
    let t := c.opFormat [a, b]
    let act := c.active sh.guard
    let fm := (fmtOf t).getD fp32
    let rs := (lanesOf act).map (fun l =>
      (l, compareFloat cc (fm.decode (elemCode t (c.floatVal t a l) 0)) (fm.decode (elemCode t (c.floatVal t b l) 0))))
    let bits := maskOf (fun l => rs.any (fun r => decide (r.1 = l) && r.2.1))
    let g1 := rs.foldl (fun g r => g.raise r.2.2) (c.g.writeP p.toNat act bits c.now sh.latency)
    c.done (c.occupy t) (g1.advance c.slot) sh.stall)

/-- FCLASS (16 R376). -/
def execFclass (d a : BitVec 6) (g st : BitVec 3) (s : State) : Host.Outcome State Fault Refusal :=
  simple (.fclass d a g st) s (fun c => c.floatTraps [a] [a] arithTag) (fun c =>
    let sh := shapeOf c.g (.fclass d a g st)
    let t := c.opFormat [a]
    let fm := (fmtOf t).getD fp32
    let out := Lanes.ofFn (fun l => w32 ((List.range (floatElems t)).foldl (fun x e =>
      x + fm.classify (fm.decode (elemCode t (c.floatVal t a l.val) e)) * 2 ^ (16 * e)) 0))
    c.done (c.occupy t) ((c.writeLanes (c.active sh.guard) sh.latency [(d.toNat, out, tU32)]).advance c.slot) sh.stall)

/-- FSCL (16 R391). A broadcast A takes the tag of a lane register B, which is no float format that FSCL has, so that it is refused; with
both broadcast the format is FP32 (04 R79).
DEDUCED: log 120. -/
def execFscl (d a b : BitVec 6) (g st : BitVec 3) (s : State) : Host.Outcome State Fault Refusal :=
  simple (.fscl d a b g st) s
    (fun c =>
      (if arithTag (c.opFormat [a, b]) then c.floatTraps [a] [d, a] arithTag else [tagTrap (if a.toNat < 48 then a.toNat else b.toNat)]) ++
      c.accept b 1 (fun t => decide (t = tRAW ∨ t = tI32))) (fun c =>
    let sh := shapeOf c.g (.fscl d a b g st)
    let t := c.opFormat [a, b]
    let act := c.active sh.guard
    let fm := (fmtOf t).getD fp32
    let rs := (lanesOf act).map (fun l =>
      packLane t l ((List.range (floatElems t)).map (fun e =>
        fm.scale c.g.rmode (fm.decode (elemCode t (c.floatVal t a l) e)) (lane (c.val b) l).toInt)))
    let outs := (List.range (regsOf t)).map (fun j => (d.toNat + j, laneWords rs j, t))
    c.done (c.occupy t) ((c.noteFloat (c.writeLanes act sh.latency outs) rs).advance c.slot) sh.stall)

/-- The rounding mode of an LC instruction (05 R107). -/
def Ctx.lcMode (c : Ctx) (r : BitVec 3) : Nat := if r = 7 then c.g.rmode else r.toNat

/-- FRND: the format FMT names is that of vA (16 R390). -/
def execFrnd (d a : BitVec 6) (f : BitVec 5) (r st : BitVec 3) (s : State) : Host.Outcome State Fault Refusal :=
  simple (.frnd d a f r st) s
    (fun c =>
      if arithTag f then
        (if f = tFP64 ∧ (d.toNat % 2 = 1 ∨ a.toNat % 2 = 1) then [illegal] else []) ++ c.accept a (regsOf f) (fun u => decide (u = f))
      else [tagTrap d.toNat])
    (fun c =>
      let sh := shapeOf c.g (.frnd d a f r st)
      let fm := (fmtOf f).getD fp32
      let rs := (lanesOf c.f.mask).map (fun l =>
        packLane f l ((List.range (floatElems f)).map (fun e =>
          fm.integral (c.lcMode r) (fm.decode (elemCode f (c.floatVal f a l) e)))))
      let outs := (List.range (regsOf f)).map (fun j => (d.toNat + j, laneWords rs j, f))
      c.done (c.occupy f) ((c.noteFloat (c.writeLanes c.f.mask sh.latency outs) rs).advance c.slot) sh.stall)

/-! ### Dot products (16 R380, R381) -/

/-- The format of operand `x` of a dot product, with `y` the other operand. -/
def Ctx.dotFormat (c : Ctx) (x y : BitVec 6) (dflt : BitVec 5) : BitVec 5 := ((c.tagOf x).orElse (fun _ => c.tagOf y)).getD dflt

/-- One lane of a dot product of `n` elements. Beside a NaN input, 0 times infinity sets invalid, and opposite infinities among the terms do
not.
DESIGN CHOICE: log 142. -/
def dotLane (n mode : Nat) (at_ : Site) (ta tb : BitVec 5) (a b d : Nat) : FRes :=
  let as := (List.range n).map (fun e => ((fmtOf ta).getD bf16).decode (elemCode ta a e))
  let bs := (List.range n).map (fun e => ((fmtOf tb).getD bf16).decode (elemCode tb b e))
  let dv := fp32.decode d
  let ps := (as.zip bs).map (fun x => if x.1.isNan || x.2.isNan then some (FVal.inf false) else x.1.times x.2)
  let bad := ps.any Option.isNone
  match fp32.propagate (as ++ bs ++ [dv]) false bad with
  | some r => r
  | none => if bad then fp32.invalid at_ else fp32.sum mode at_ (ps.filterMap id ++ [dv])

/-- FDOT2 and FDOT4. -/
def floatDot (i : Instr) (s : State) (d a b : BitVec 6) (n : Nat) (dflt : BitVec 5) (ok : BitVec 5 → Bool) :
    Host.Outcome State Fault Refusal :=
  simple i s (fun c => c.accept a 1 ok ++ c.accept b 1 ok ++ c.accept d 1 onlyFp32) (fun c =>
    let sh := shapeOf c.g i
    let act := c.active sh.guard
    let rs := (lanesOf act).map (fun l =>
      packLane tFP32 l [dotLane n c.g.rmode (c.site l) (c.dotFormat a b dflt) (c.dotFormat b a dflt)
        (lane (c.val a) l).toNat (lane (c.val b) l).toNat (lane (c.val d) l).toNat])
    c.done c.s ((c.noteFloat (c.writeLanes act sh.latency [(d.toNat, laneWords rs 0, tFP32)]) rs).advance c.slot) sh.stall)

/-- FDOT2. -/
def execFdot2 (d a b : BitVec 6) (g st : BitVec 3) (s : State) : Host.Outcome State Fault Refusal :=
  floatDot (.fdot2 d a b g st) s d a b 2 tBF16 (fun t => decide (t = tBF16 ∨ t = tFP16))

/-- FDOT4. -/
def execFdot4 (d a b : BitVec 6) (g st : BitVec 3) (s : State) : Host.Outcome State Fault Refusal :=
  floatDot (.fdot4 d a b g st) s d a b 4 tE4M3 (fun t => decide (t = tE4M3 ∨ t = tE5M2))

/-! ### Conversions (16 R377 to R379, R403, R404) -/

/-- The integer formats, with their width and signedness; I4X and I2T have their own codes. -/
def intTagOf (t : BitVec 5) : Bool :=
  decide (t = tI32 ∨ t = tU32 ∨ t = tI16 ∨ t = tI8 ∨ t = tU8 ∨ t = tI4 ∨ t = tU4 ∨ t = tI4X ∨ t = tI2T)

/-- The range of an integer format (05 R101; 16 R403). -/
def intRange (t : BitVec 5) : Int × Int :=
  if t = tI4X then (-7, 7)
  else if t = tI2T then (-1, 1)
  else if t = tU32 ∨ t = tU8 ∨ t = tU4 then (0, 2 ^ elemBits t - 1)
  else (-(2 ^ (elemBits t - 1)), 2 ^ (elemBits t - 1) - 1)

/-- The integer value of an I4X element of a byte with scale 1 (05 R104); none for a double escape. -/
def i4xValue (byte : Nat) (odd : Bool) : Option Int :=
  let x := if odd then bitsOf byte 4 4 else bitsOf byte 0 4
  let y := if odd then bitsOf byte 0 4 else bitsOf byte 4 4
  if x = 8 then
    if y = 8 then none
    else
      let m : Int := 2 ^ (bitsOf y 1 2 + 2) * (2 + bitsOf y 0 1 : Nat)
      some (if bitsOf y 3 1 = 1 then -m else m)
  else if y = 8 then some 0
  else some (signedOf 4 x)

/-- The integer value of element `i` of a register, or the tag-trap cause with which it is refused (05 R103, R104). -/
def intElem (t : BitVec 5) (v i : Nat) : Except (BitVec 4) Int :=
  if t = tI4X then (match i4xValue (bitsOf v (8 * (i / 2)) 8) (decide (i % 2 = 1)) with | some x => .ok x | none => .error 3)
  else if t = tI2T then (if bitsOf v (2 * i) 2 = 2 then .error 2 else .ok (signedOf 2 (bitsOf v (2 * i) 2)))
  else
    let x := bitsOf v (elemBits t * i) (elemBits t)
    .ok (if t = tU32 ∨ t = tU8 ∨ t = tU4 then (x : Int) else signedOf (elemBits t) x)

/-- The code of an integer in a format. -/
def intCode (t : BitVec 5) (x : Int) : Nat := (x % 2 ^ elemBits t).toNat

/-- Elements per register of a format, at least one. -/
def perReg (t : BitVec 5) : Nat := max 1 (density2 t / 2)

/-- Element `i` of a conversion's source: the value of the register or pair that holds it, and its position there. -/
def Ctx.cvtPlace (c : Ctx) (a : BitVec 6) (t : BitVec 5) (l i : Nat) : Nat × Nat :=
  if t = tFP64 then (pairNat (lane (c.val a (2 * i)) l) (lane (c.val a (2 * i + 1)) l), 0)
  else ((lane (c.val a (i / perReg t)) l).toNat, i % perReg t)

/-- One element of a conversion. -/
def cvtElem (mode : Nat) (src dst : BitVec 5) (v pos : Nat) : FRes :=
  match fmtOf src, fmtOf dst with
  | some f, some f' => f'.convert mode (decide (f'.payBits < f.payBits)) (f.decode (elemCode src v pos))
  | some f, none =>
    let r := toInteger mode (intRange dst).1 (intRange dst).2 (f.decode (elemCode src v pos))
    { code := intCode dst r.1, flags := r.2 }
  | none, some f' => (match intElem src v pos with | .ok x => f'.ofInt mode x | .error _ => f'.zero false)
  | none, none =>
    (match intElem src v pos with
     | .ok x => { code := intCode dst (clampInt (intRange dst).1 (intRange dst).2 x) }
     | .error _ => { code := 0 })

/-- The traps of the operands of a conversion from format `t` to `f`: ranges, then tags.
DEDUCED: log 20. -/
def Ctx.cvtTraps (c : Ctx) (d a : BitVec 6) (t f : BitVec 5) (ok : BitVec 5 → BitVec 5 → Bool) : List Trap :=
  if !tagAssigned f then [tagTrap d.toNat]
  else
    let e := cvtElems2 t f
    let ns := e / density2 t
    let nt := e / density2 f
    (if (a.toNat < 48 ∧ 48 < a.toNat + ns) ∨ 64 < a.toNat + ns ∨ 48 < d.toNat + nt ∨
        (t = tFP64 ∧ a.toNat % 2 = 1) ∨ (f = tFP64 ∧ d.toNat % 2 = 1) then [illegal] else []) ++
    (if ok t f then c.accept a ns (fun u => decide (u = (c.tagOf a).getD t))
     else [tagTrap (if ok t t || ok t tI32 then d.toNat else a.toNat)])

/-- The tag traps of refused element codes, lane by lane. -/
def Ctx.elemTraps (c : Ctx) (a : BitVec 6) (t : BitVec 5) (n : Nat) : List Trap :=
  (mergeLanes ((lanesOf c.f.mask).flatMap (fun l =>
    (List.range n).filterMap (fun i =>
      let x := c.cvtPlace a t l i
      match intElem t x.1 x.2 with
      | .error cause => some (l, { kind := 0x05, cause := cause, entry := BitVec.ofNat 8 (a.toNat + i / perReg t) })
      | .ok _ => none)))).toList

/-- The effect of a conversion. -/
def Ctx.convert (c : Ctx) (sh : Shape) (d a : BitVec 6) (t f : BitVec 5) (mode : Nat) : State :=
  let n := cvtElems2 t f / 2
  let nt := cvtElems2 t f / density2 f
  let rs := (lanesOf c.f.mask).map (fun l =>
    packLane f l ((List.range n).map (fun i => let x := c.cvtPlace a t l i; cvtElem mode t f x.1 x.2)))
  let outs := (List.range nt).map (fun j => (d.toNat + j, laneWords rs j, f))
  let s1 := if t = tFP64 then c.occupy t else c.occupy f
  c.done s1 ((c.noteFloat (c.writeLanes c.f.mask sh.latency outs) rs).advance c.slot) sh.stall

/-- The float formats of FCVT. -/
def fcvtOk (t f : BitVec 5) : Bool := (fmtOf t).isSome && (fmtOf f).isSome

/-- FCVT (16 R378). -/
def execFcvt (d a : BitVec 6) (f : BitVec 5) (r st : BitVec 3) (s : State) : Host.Outcome State Fault Refusal :=
  simple (.fcvt d a f r st) s
    (fun c => c.cvtTraps d a ((c.tagOf a).getD tFP32) f fcvtOk)
    (fun c => c.convert (shapeOf c.g (.fcvt d a f r st)) d a ((c.tagOf a).getD tFP32) f (c.lcMode r))

/-- The formats of ICVT, at least one of which is an integer format. -/
def icvtOk (t f : BitVec 5) : Bool :=
  (intTagOf t || arithTag t) && (intTagOf f || arithTag f) && (intTagOf t || intTagOf f)

/-- The source format of ICVT: RAW and a broadcast source are read as I32. -/
def Ctx.icvtSource (c : Ctx) (a : BitVec 6) : BitVec 5 :=
  let t := (c.tagOf a).getD tRAW
  if t = tRAW then tI32 else t

/-- ICVT (16 R403). -/
def execIcvt (d a : BitVec 6) (f : BitVec 5) (r st : BitVec 3) (s : State) : Host.Outcome State Fault Refusal :=
  simple (.icvt d a f r st) s
    (fun c =>
      let t := c.icvtSource a
      match c.cvtTraps d a t f icvtOk with
      | [] => if intTagOf t then c.elemTraps a t (cvtElems2 t f / 2) else []
      | ts => ts)
    (fun c => c.convert (shapeOf c.g (.icvt d a f r st)) d a (c.icvtSource a) f (c.lcMode r))

/-- TAG (18 R460). -/
def execTag (d a : BitVec 6) (f : BitVec 5) (st : BitVec 3) (s : State) : Host.Outcome State Fault Refusal :=
  laneInstr (.tag d a f st) s
    (fun c => (if tagAssigned f then [] else [tagTrap d.toNat]) ++ c.accept a (regsOf f) anyTag)
    (fun c => (List.range (regsOf f)).map (fun j => (d.toNat + j, c.val a j, f)))

end Sys2Proof.Machine
end

