-- ==== Sys2Proof/Machine/Order.lean ====
section
/-! DEFINITION. Memory order (09 R194 to R204): the moments from which a load may read, what a release carries to the acquires that synchronise
with it, and the scopes of agents. -/

namespace Sys2Proof.Machine

/-! ### The past of memory -/

/-- Whether a moment stored a byte. -/
def Moment.wrote (m : Moment) (a : Nat) : Bool := m.old.any (fun c => decide (c.1 = a))

/-- The byte at an address as it stood after moment `t`, given the byte after the newest moment listed. -/
def byteAt (a t : Nat) : Byte → List Moment → Byte
  | b, [] => b
  | b, m :: r =>
    if m.time ≤ t then b else byteAt a t (match m.old.find? (fun c => decide (c.1 = a)) with | some c => c.2 | none => b) r

/-- The latest moment up to `t` that stored a byte; 0 for none. -/
def lastAt (a t : Nat) : List Moment → Nat
  | [] => 0
  | m :: r => if m.time ≤ t ∧ m.wrote a = true then m.time else lastAt a t r

/-- The latest moment up to `t` at which an agent of the dev instance stored a byte; 0 for none. -/
def lastInsideAt (a t : Nat) : List Moment → Nat
  | [] => 0
  | m :: r => if m.time ≤ t ∧ m.wrote a = true ∧ m.outside = false then m.time else lastInsideAt a t r

/-- Whether a read-modify-write stored a byte at moment `t`. -/
def rmwAt (a t : Nat) (h : List Moment) : Bool := h.any (fun m => decide (m.time = t) && m.wrote a && m.rmw)

/-- The latest moment that stored any of some bytes. -/
def State.lastWrite (s : State) (as : List Nat) : Nat := as.foldl (fun t a => max t (lastAt a s.tick s.hist)) 0

/-- A byte as it stood after a moment. -/
def State.pastByte (s : State) (a t : Nat) : Byte := byteAt a t (s.byte a) s.hist

/-- The moments from `floor` on after which some bytes stood differently, newest first. -/
def State.moments (s : State) (as : List Nat) (floor : Nat) : List Nat :=
  ((s.hist.filter (fun m => decide (floor < m.time) && as.any m.wrote)).map (fun m => m.time)).eraseDups ++ [floor]

/-- The moment that a load reads: a free choice among those that its order leaves it and that `ok` allows.
DESIGN CHOICE: log 10. -/
def State.readMoment (s : State) (as : List Nat) (floor ix : Nat) (ok : Nat → Bool := fun _ => true) : Nat :=
  match (s.moments as floor).filter ok with
  | [] => floor
  | [t] => t
  | ts => ts.getD (Config.freeNat s.fresh (2 ^ 24 + ix) % ts.length) floor

/-- The stores of the present step were made by a hart or an endpoint. -/
def State.markOutside (s : State) : State :=
  { s with hist := s.hist.map (fun m => if m.time = s.tick then { m with outside := true } else m) }

/-- A group has read some bytes as they stood after a moment: whatever stored them stands in the module's visibility order. -/
def State.noteRead (s : State) (as : List Nat) (t : Nat) : State :=
  if s.hist.any (fun m => m.outside) then
    let ws := as.map (fun a => lastAt a t s.hist)
    { s with hist := s.hist.map (fun m => if m.outside && ws.contains m.time then { m with outside := false } else m) }
  else s

/-! ### What binds a group -/

/-- Whether two fragments share lanes. -/
def shares (a b : Mask) : Bool := decide (a &&& b ≠ 0)

/-- The latest of a fragment's lanes, and its lanes raised to a moment. -/
def laneMax (t : List (Nat × Nat)) (m : Mask) : Nat := (lanesOf m).foldl (fun a l => max a (Assoc.get 0 t l)) 0
def laneRaise (t : List (Nat × Nat)) (m : Mask) (x : Nat) : List (Nat × Nat) :=
  if x = 0 then t else (lanesOf m).foldl (fun t l => Assoc.set 0 t l (max x (Assoc.get 0 t l))) t

/-- Addresses as runs of consecutive ones. -/
def runs : List Nat → List (Nat × Nat)
  | [] => []
  | a :: t =>
    match runs t with
    | (b, n) :: r => if a + 1 = b then (a, n + 1) :: r else (a, 1) :: (b, n) :: r
    | [] => [(a, 1)]

/-- Whether a seen moment is that of a byte. -/
def Seen.has (x : Seen) (a : Nat) : Bool := decide (x.lo ≤ a) && decide (a < x.lo + x.len)

/-- A list of seen moments with an access of some lanes to some bytes at a moment. -/
def seeAll (xs : List Seen) (m : Mask) (as : List Nat) (t : Nat) (store : Bool) : List Seen :=
  let rs := runs as
  rs.map (fun r => { lo := r.1, len := r.2, time := t, owner := m, store := store }) ++
    xs.filter (fun x => !(decide (x.owner = m) && decide (x.time ≤ t) && (store || !x.store) &&
      rs.any (fun r => decide (r.1 ≤ x.lo) && decide (x.lo + x.len ≤ r.1 + r.2))))

/-- An access of some lanes has taken effect at a moment. -/
def Order.see (o : Order) (m : Mask) (as : List Nat) (t : Nat) (store : Bool) : Order :=
  if t = 0 then o
  else
    { o with
      last := laneRaise o.last m t
      stored := if store then laneRaise o.stored m t else o.stored
      seen := seeAll o.seen m as t store }

/-- The latest moment that lanes have seen of some bytes. -/
def seenOf (xs : List Seen) (m : Mask) (as : List Nat) : Nat :=
  xs.foldl (fun t x => if shares x.owner m && as.any x.has then max t x.time else t) 0

/-- The moment from which a load of some bytes reads (09 R202, R203). An order of dev scope does not reach harts and endpoints: what they
stored is bound only by what the lanes have seen and by orders of sys scope or wider (09 R194, R195). -/
def State.floorOf (s : State) (o : Order) (m : Mask) (as : List Nat) : Nat :=
  max (max (laneMax o.floorSys m) (seenOf o.seen m as)) (as.foldl (fun t a => max t (lastInsideAt a (laneMax o.floor m) s.hist)) 0)

/-- Whether a scope is dev or wider, so that its edges enter the module's visibility order (09 R203). -/
def wide (scope : Nat) : Bool := decide (3 ≤ scope)

/-- The later loads of some lanes read from a moment on, by an order of a scope: not below dev, and at sys or wider also what harts and
endpoints stored. -/
def Order.raise (o : Order) (m : Mask) (scope t : Nat) : Order :=
  { o with
    floor := if 3 ≤ scope then laneRaise o.floor m t else o.floor
    floorSys := if 4 ≤ scope then laneRaise o.floorSys m t else o.floorSys }

/-- Some lanes observe the completion of the engine operations of a class (09 R197 row 9). -/
def Order.observe (o : Order) (m : Mask) (cls : Nat) : Order :=
  let mine := (o.engine.filter (fun e => decide (e.1 = cls))).map (fun e => { e.2 with owner := m })
  { o with
    seen := mine.filter (fun x => !o.seen.contains x) ++ o.seen
    last := laneRaise o.last m (mine.foldl (fun t x => max t x.time) 0)
    stored := laneRaise o.stored m (mine.foldl (fun t x => if x.store then max t x.time else t) 0)
    engine := if m = BitVec.allOnes 32 then o.engine.filter (fun e => decide (e.1 ≠ cls)) else o.engine }

/-- A group with the accesses of an engine operation that has completed. -/
def Group.engineDone (g : Group) (cls : Nat) (xs : List Seen) : Group :=
  { g with order := { g.order with engine := xs.map (fun x => (cls, x)) ++ g.order.engine } }

/-- Lanes that fuse are bound by what bound any of them (09 R196). -/
def Order.join (o : Order) (m : Mask) : Order :=
  let own (x : Mask) : Mask := if shares x m then x ||| m else x
  { o with
    floor := laneRaise o.floor m (laneMax o.floor m)
    floorSys := laneRaise o.floorSys m (laneMax o.floorSys m)
    released := laneRaise o.released m (laneMax o.released m)
    last := laneRaise o.last m (laneMax o.last m)
    stored := laneRaise o.stored m (laneMax o.stored m)
    far := laneRaise o.far m (laneMax o.far m)
    fencer := laneRaise o.fencer m (laneMax o.fencer m)
    seen := o.seen.map (fun x => { x with owner := own x.owner })
    debts := o.debts.map (fun x => { x with owner := own x.owner })
    heard := o.heard.map (fun x => (x.1, own x.2))
    fenced := o.fenced.map (fun x => { x with owner := own x.owner }) }

/-- What stands before a release of some lanes: `open_` are the group's own operations that have not taken effect. -/
def Order.view (o : Order) (m : Mask) (open_ : List Nat) : View :=
  { seen := (o.seen.filter (fun x => shares x.owner m)).map (fun x => { x with owner := BitVec.allOnes 32 })
    debts := (open_ ++ (o.debts.filter (fun d => shares d.owner m)).map (fun d => d.op)).eraseDups }

/-- Some lanes acquire what stands before a release, for their accesses after `po`. -/
def Order.take (o : Order) (m : Mask) (po : Nat) (v : View) : Order :=
  { o with
    seen := (v.seen.map (fun x => { x with owner := m })).filter (fun x => !o.seen.contains x) ++ o.seen
    debts := (v.debts.map (fun d => { op := d, owner := m, po := po })).filter (fun d => !o.debts.contains d) ++ o.debts }

/-! ### Scopes (09 R194, R195) -/

/-- A group as scopes see it. -/
def State.partyOf (s : State) (g : Group) : Party :=
  { launch := g.launchid.toNat, unit := g.unitix.toNat, group := g.groupix.toNat
    cluster := match Assoc.find g.launchid.toNat s.launches with
      | some l => if l.flags.getLsbD 11 then some g.cluix.toNat else none
      | none => none }

/-- Whether group `b` lies in the instance of a scope for group `a`. -/
def Party.covers (a : Party) (scope : Nat) (b : Party) : Bool :=
  match scope with
  | 0 => decide (a = b)
  | 1 => decide (a.launch = b.launch) && decide (a.unit = b.unit)
  | 2 =>
    decide (a.launch = b.launch) &&
      (match a.cluster, b.cluster with | some x, some y => decide (x = y) | _, _ => decide (a.unit = b.unit))
  | _ => true

/-- Whether a message and an acquire of `b` at a scope are mutually in scope. A message of the device reaches every acquire (02 R33). -/
def Message.reaches (m : Message) (b : Party) (scope : Nat) : Bool :=
  match m.agent with
  | some a => a.covers m.scope b && b.covers scope a && (decide (m.scope ≠ 6) || decide (scope = 5))
  | none => true

/-- Some lanes of a group acquire the messages that reach them at a scope. -/
def Group.takeAll (g : Group) (b : Party) (m : Mask) (po scope : Nat) (ms : List Message) : Group :=
  { g with order := (ms.filter (fun x => x.reaches b scope)).foldl (fun o x => o.take m po x.view) g.order }

/-! ### Releases and acquires of the machine -/

/-- A memory operation with accesses that have not taken effect. -/
def MemOp.open_ (o : MemOp) : Bool := !o.accs.isEmpty

/-- The operations of some lanes of a group, before `po`, that have not taken effect. -/
def State.openOps (s : State) (key : Nat) (m : Mask) (po : Nat) : List Nat :=
  (s.ops.filter (fun o => decide (o.2.group = key) && decide (o.2.po < po) && shares o.2.owner m && o.2.open_)).map (fun o => o.1)

/-- What stands before a release of some lanes of a group. -/
def State.viewOf (s : State) (key : Nat) (g : Group) (m : Mask) (po : Nat) : View := g.order.view m (s.openOps key m po)

/-- What stands before an ordered flag: the group's stores (09 R197 row 7). -/
def View.stores (v : View) : View := { v with seen := v.seen.filter (fun x => x.store) }

/-- Leaves a message of an agent. -/
def State.tellAs (s : State) (a : Option Party) (lo len event scope : Nat) (fence : Bool) (v : View) : State :=
  { s with
    nextId := s.nextId + 1
    msgs := { id := s.nextId, lo := lo, len := len, time := s.tick, event := event, agent := a, scope := scope, fence := fence, view := v } :: s.msgs }

/-- Leaves a message of a group. -/
def State.tell (s : State) (g : Group) (lo len event scope : Nat) (fence : Bool) (v : View) : State :=
  s.tellAs (some (s.partyOf g)) lo len event scope fence v

/-- A store of some lanes has taken effect on some bytes: its own release, where it is one, and what it carries for the fences before it
(09 R200). -/
def State.tellStore (s : State) (key : Nat) (g : Group) (m : Mask) (po : Nat) (as : List Nat) (release : Option Nat) (flagged : Bool) : State :=
  (runs as).foldl (fun s r =>
    let s1 := match release with | some sc => s.tell g r.1 r.2 0 sc false (s.viewOf key g m po) | none => s
    let s2 := if flagged then s1.tell g r.1 r.2 0 6 false (s.viewOf key g m po).stores else s1
    (g.order.fenced.filter (fun f => shares f.owner m && decide (f.po ≤ po))).foldl (fun s f =>
      s.tell g r.1 r.2 0 f.scope (decide (f.scope ≠ 6)) f.view) s2) s

/-- The messages whose value a load of a byte returns at moment `t` (09 R200): of the store that it reads, and of every earlier store to the
byte when it reads an atomic. -/
def State.messagesAt (s : State) (a t : Nat) : List Message :=
  let w := lastAt a t s.hist
  let all := rmwAt a w s.hist
  s.msgs.filter (fun m => decide (m.event = 0) && decide (m.lo ≤ a) && decide (a < m.lo + m.len) &&
    (decide (m.time = w) || (all && decide (m.time ≤ w))))

/-- Likewise of several bytes. -/
def State.messagesOf (s : State) (as : List Nat) (t : Nat) : List Message :=
  if s.msgs.isEmpty then [] else (as.flatMap (fun a => s.messagesAt a t)).eraseDups

/-- The messages of an event of an object. -/
def State.eventMessages (s : State) (pa event : Nat) : List Message :=
  s.msgs.filter (fun m => decide (m.event = event) && decide (m.lo = pa))

/-- A debt has taken effect on some bytes, at position `t`: whoever held it has seen the moment. -/
def State.settleDebt (s : State) (op : Nat) (as : List Nat) (t : Nat) (store : Bool) : State :=
  let ranges := runs as
  let add (v : View) : View :=
    if v.debts.contains op then { v with seen := ranges.map (fun r => { lo := r.1, len := r.2, time := t, store := store }) ++ v.seen } else v
  let ord (o : Order) : Order :=
    { (o.debts.filter (fun d => decide (d.op = op))).foldl (fun o d => { o with seen := seeAll o.seen d.owner as t store }) o with
      fenced := o.fenced.map (fun f => { f with view := add f.view }) }
  if s.msgs.isEmpty && s.copies.isEmpty && s.groups.all (fun x => x.2.order.debts.isEmpty && x.2.order.fenced.isEmpty) then s
  else
    { s with
      msgs := s.msgs.map (fun m => { m with view := add m.view })
      copies := s.copies.map (fun x : Nat × CopyOp => (x.1, { x.2 with view := add x.2.view }))
      groups := s.groups.map (fun x : Nat × Group => (x.1, { x.2 with order := ord x.2.order })) }

/-- Two views together. -/
def View.join (v w : View) : View := { seen := w.seen ++ v.seen, debts := (v.debts ++ w.debts).eraseDups }

/-- An acquire at position `t` has taken messages: whoever held it as a debt is bound by what they carry, and by its position where it is one at
sys scope (09 R201, R202). -/
def State.settleAcquire (s : State) (op t : Nat) (sys : Bool) (ms : List Message) : State :=
  let v := ms.foldl (fun v m => v.join m.view) ({} : View)
  let add (w : View) : View := if w.debts.contains op then w.join v else w
  let ord (o : Order) : Order :=
    { (o.debts.filter (fun d => decide (d.op = op))).foldl (fun o d =>
        let o1 := o.take d.owner d.po v
        if sys then o1.raise d.owner 4 t else o1) o with
      fenced := o.fenced.map (fun f => { f with view := add f.view }) }
  if ms.isEmpty && !sys then s
  else
    { s with
      msgs := s.msgs.map (fun m => { m with view := add m.view })
      copies := s.copies.map (fun x : Nat × CopyOp =>
        (x.1, { x.2 with view := add x.2.view, floor := if sys && x.2.view.debts.contains op then max x.2.floor t else x.2.floor }))
      groups := s.groups.map (fun x : Nat × Group => (x.1, { x.2 with order := ord x.2.order })) }

/-- The narrowest thing an operation's loads acquire by: its own scope, or that of a FENCE behind it. -/
def MemOp.acquiring (o : MemOp) : Option (BitVec 3) := match o.acquire with | some x => some x | none => o.fence

/-- The bytes of this module that an access touches. -/
def AccessKind.bytes : AccessKind → List Nat
  | .read cells => cells.map (fun c => c.1)
  | .write cells => cells.map (fun c => c.1)
  | .rmw addr size _ _ => (List.range size).map (fun j => addr + j)

/-- Whether an operation, where it is still open, concerns some bytes (all when none are given): it touches them, or its loads have still
to acquire. -/
def State.openOn (s : State) (op : Nat) (as : Option (List Nat)) : Bool :=
  match Assoc.find op s.ops with
  | some o =>
    (o.acquiring.isSome && o.open_) ||
    o.accs.any (fun x => match as with | none => true | some bytes => x.2.kind.bytes.any (fun b => bytes.contains b))
  | none => false

/-- Whether a message carries what stands in the way of stores that passed a load: a later access to one of their bytes, seen or still
open (09 R202). -/
def State.conflicts (s : State) (passed : List Seen) (m : Message) : Bool :=
  passed.any (fun y =>
    m.view.seen.any (fun x => decide (x.lo < y.lo + y.len) && decide (y.lo < x.lo + x.len) && decide (y.time < x.time)) ||
    m.view.debts.any (fun d => s.openOn d (some ((List.range y.len).map (fun i => y.lo + i)))))

/-- Whether the debts of some lanes, up to `po`, that concern some bytes (all bytes when none are given) have taken effect. -/
def State.debtsPaid (s : State) (g : Group) (m : Mask) (po : Nat) (as : Option (List Nat)) : Bool :=
  g.order.debts.all (fun d =>
    !(shares d.owner m && decide (d.po ≤ po)) || !s.openOn d.op as)

/-- Some lanes of a group complete an acquire at a scope: what it observes stood so since moment `t`, and messages of it reach the group.
An acquire that observes the device's decrement of a counter to 0 is one at sys scope (02 R33). -/
def State.acquires (s : State) (g : Group) (m : Mask) (po scope t : Nat) (ms : List Message) : Group :=
  let sc := if ms.any (fun x => x.agent.isNone) then max scope 4 else scope
  let g1 := { g with order := g.order.raise m sc (max t (laneMax g.order.floor m)) }
  g1.takeAll (s.partyOf g) m po sc (ms.filter (fun x => !x.fence))

/-- The group of a key completes an acquire of an object of some bytes, with the messages of one of its events. -/
def State.acquireObject (s : State) (g : Group) (m : Mask) (scope : Nat) (pa n event : Nat) : Group :=
  let as := (List.range n).map (fun i => pa + i)
  s.acquires { g with order := g.order.see m as (s.lastWrite as) false } m g.po scope (s.lastWrite as) (s.eventMessages pa event)

/-- A group has stored to an object of some bytes at the present moment. -/
def State.seeObject (s : State) (g : Group) (m : Mask) (pa n : Nat) : Group :=
  { g with order := g.order.see m ((List.range n).map (fun i => pa + i)) s.tick true }

/-- The events of objects (09 R200): the arrivals toward a barrier's phase, the publications and the releases of a ring's slot. -/
def phaseEvent (n : Nat) : Nat := 1 + n
def publishEvent (i : Nat) : Nat := 0x200 + i
def releaseEvent (i : Nat) : Nat := 0x300 + i

/-- The event of a completion counter for CCWAIT, whose sys scope takes the device's decrement to 0 without a message of it. -/
def counterEvent : Nat := 0x400

/-- The position of a load of some bytes that returns what stood after moment `r`: no later than it, and not before what binds it. -/
def State.loadAt (s : State) (as : List Nat) (floor r : Nat) : Nat := as.foldl (fun t a => max t (lastAt a r s.hist)) floor

end Sys2Proof.Machine
end

