-- ==== Sys2Proof/Machine/Translate.lean ====
section
/-! DEFINITION. Addresses: the windows of the job address space (07 R142 to R149), the physical map (07 R150, R151), job contexts and
page-table walks (10 R211 to R217), domain keys (07 R159), and the checks of lane and uniform accesses. -/

namespace Sys2Proof.Machine

/-! ### The physical map (07 R150, R151) -/

/-- Whether a physical address lies in the populated second tier. -/
def inTier2 (pa : Nat) : Bool := decide (0x10000000000 ≤ pa) && decide (pa < 0x265A0BC0000)

/-- Whether a physical address lies in the CXL range. -/
def inCxl (pa : Nat) : Bool := decide (0x100000000000 ≤ pa) && decide (pa < 2 ^ 52)

/-- Whether a physical address is populated; CXL memory is what the HDM decoders map. -/
def State.populated (s : State) (pa : Nat) : Bool :=
  inHbm pa || inTier2 pa || (inCxl pa && s.hdm.any (fun r => decide (r.2.1 ≤ pa) && decide (pa < r.2.1 + r.2.2.1)))

/-! ### Job contexts (10 R211) -/

/-- The physical address of a job's context record. -/
def State.contextAddr (s : State) (job : Nat) : Nat := s.ctlNat .trans 0 8 + 64 * job

/-- ROOT of a job's context record. -/
def State.jobRoot (s : State) (job : Nat) : Nat := s.nat (s.contextAddr job) 8

/-- Whether a job is live; JOBID 0 names no job. -/
def State.jobLive (s : State) (job : Nat) : Bool := decide (job ≠ 0) && decide (s.jobRoot job % 2 = 1)

/-- PRIVBASE of a job. -/
def State.privBase (s : State) (job : Nat) : Nat := s.nat (s.contextAddr job + 8) 8

/-- A job's grant on die `d`: first byte and length (07 R149). -/
def State.dieGrant (s : State) (job d : Nat) : Nat × Nat :=
  (s.nat (s.contextAddr job + 0x10 + 8 * d) 4, s.nat (s.contextAddr job + 0x14 + 8 * d) 4)

/-! ### Page-table entries (10 R214, R215) -/

/-- Field accessors of an entry. -/
def pteV (e : Nat) : Bool := decide (bitsOf e 0 1 = 1)
def pteW (e : Nat) : Bool := decide (bitsOf e 1 1 = 1)
def pteA (e : Nat) : Bool := decide (bitsOf e 2 1 = 1)
def pteD (e : Nat) : Bool := decide (bitsOf e 3 1 = 1)
def pteLeaf (e : Nat) : Bool := decide (bitsOf e 4 1 = 1)
def pteKey (e : Nat) : Nat := bitsOf e 5 4
def pteMig (e : Nat) : Bool := decide (bitsOf e 9 1 = 1)
def pteTier (e : Nat) : Nat := bitsOf e 10 2
def pteNodeOut (e : Nat) : Bool := decide (bitsOf e 12 1 = 1)
def pteAddr (e : Nat) : Nat := bitsOf e 13 39 * 2 ^ 13

/-- Whether an entry at a level is a leaf. -/
def isLeafAt (level e : Nat) : Bool := decide (level = 3) || pteLeaf e

/-- The bits of virtual address below one entry's reach, by level. -/
def levelShift (level : Nat) : Nat := 46 - 10 * level

/-- Whether TIER agrees with the range of an address. -/
def tierAgrees (tier pa : Nat) : Bool :=
  match tier with
  | 0 => inHbm pa
  | 1 => inTier2 pa
  | 2 => inCxl pa
  | _ => false

/-- Whether a valid entry is malformed at a level (10 R215). -/
def malformed (level e : Nat) : Bool :=
  decide (bitsOf e 60 4 ≠ 0) ||
  (decide (level = 0) && pteLeaf e) || (decide (level = 3) && !pteLeaf e) ||
  !tierAgrees (pteTier e) (pteAddr e) ||
  (isLeafAt level e && decide (pteAddr e % 2 ^ levelShift level ≠ 0)) ||
  (isLeafAt level e && pteNodeOut e)

/-! ### Domain keys (07 R159) -/

/-- The agent of an access, as the key rules see it. -/
inductive Agent where
  /-- A group, with its role and key mask. -/
  | group (role : Role) (mask : BitVec 16)
  /-- The device on no group's behalf, with the key mask of R505. -/
  | device (mask : BitVec 16)
  /-- An endpoint, or an NTB peer, with its key mask. -/
  | endpoint (mask : BitVec 16)
  deriving DecidableEq, Repr

/-- The domain-fault cause with which a page of a key refuses an agent's access: 0 key not in mask, 1 weight domain, 2 context
domain (10 R224). -/
def keyRefusal (a : Agent) (write : Bool) (key : Nat) : Option (BitVec 4) :=
  if key = 15 then some 2
  else
    match a with
    | .group role mask =>
      if key = 1 then
        if write || decide (role = .vector) then some 1 else if mask.getLsbD 1 then none else some 0
      else if mask.getLsbD key then none else some 0
    | .device mask => if key = 1 then some 1 else if mask.getLsbD key then none else some 0
    | .endpoint mask =>
      if key = 1 then some 1 else if mask.getLsbD key then none else some 0

/-! ### Walks (10 R216) -/

/-- A translation: the physical address, the leaf entry's place and value and its level, the node entries that the walk read, by level;
`cached` for a translation that was held, which no walk records. -/
structure Found where
  pa : Nat
  pte : Nat
  entry : Nat
  level : Nat
  nodes : List (Nat × Nat) := []
  cached : Bool := false
  deriving DecidableEq, Repr

/-- The result of a translation. -/
inductive Walk where
  | ok (f : Found)
  | fault (t : Trap)
  /-- The access is held in the replay queue for the migrating entry at this address (10 R231). -/
  | held (pte : Nat)
  deriving DecidableEq, Repr

/-- The entry that a walk reads: that of memory, or a held node entry that differs from it, at the device's choice (10 R217).
DESIGN CHOICE: log 23. -/
def State.entryAt (s : State) (job level va at_ : Nat) : Nat :=
  let e := s.nat at_ 8
  match s.nodes.find? (fun n => decide (n.job = job) && decide (n.level = level) && decide (n.high = va / 2 ^ levelShift level)) with
  | some n => if n.entry = e then e else if Config.freeNat s.fresh (2 ^ 25 + 4 * (va / 2 ^ 16) + level) % 2 = 0 then e else n.entry
  | none => e

/-- A walk from a node at a level, by fuel; `path` holds the node entries read so far.
DEDUCED: log 26. -/
def walkFrom (s : State) (agent : Agent) (job va : Nat) (write : Bool) : Nat → Nat → Nat → List (Nat × Nat) → Walk
  | 0, _, _, _ => .fault { kind := 0x09, cause := 1, write := write, addr := va }
  | fuel + 1, base, level, path =>
    let lv : BitVec 2 := BitVec.ofNat 2 level
    let at_ := base + 8 * bitsOf va (levelShift level) 10
    if !(inHbm base || inTier2 base) then
      .fault { kind := 0x09, cause := 2, write := write, addr := va, level := lv, info := BitVec.ofNat 64 at_, cfg := some at_ }
    else if s.homeWaits at_ then .held at_
    else if s.poisoned at_ then .fault { kind := 0x0F, cause := 1, write := write, addr := va, cfg := some at_ }
    else
      let e := s.entryAt job level va at_
      let info : BitVec 64 := BitVec.ofNat 64 at_
      if !pteV e then
        if level < 3 && pteNodeOut e then .fault { kind := 0x09, cause := 0, write := write, addr := va, level := lv, info := info }
        else .fault { kind := 0x08, cause := 0, write := write, addr := va, level := lv }
      else if malformed level e then .fault { kind := 0x09, cause := 1, write := write, addr := va, level := lv, info := info }
      else if pteMig e then .held at_
      else if isLeafAt level e then
        match keyRefusal agent write (pteKey e) with
        | some c => .fault { kind := 0x07, cause := c, write := write, addr := va, level := lv }
        | none =>
          if write && !pteW e then .fault { kind := 0x08, cause := 1, write := true, addr := va, level := lv }
          else .ok { pa := pteAddr e + va % 2 ^ levelShift level, pte := at_, entry := e, level := level, nodes := path }
      else walkFrom s agent job va write fuel (pteAddr e) (level + 1) ((level, e) :: path)

/-- A walk of a job's table. A job that is not live is refused as CONFIG, INFO naming its context record (10 R211). -/
def walk (s : State) (agent : Agent) (job va : Nat) (write : Bool) : Walk :=
  if s.jobLive job then walkFrom s agent job va write 4 (bitsOf (s.jobRoot job) 13 39 * 2 ^ 13) 0 []
  else .fault { kind := 0x09, cause := 2, write := write, addr := va, info := BitVec.ofNat 64 (s.contextAddr job), cfg := some (s.contextAddr job) }

/-- Records the access in the leaf entry: A on any translation, D on the first with write intent (10 R215). -/
def State.setAD (s : State) (f : Found) (write : Bool) : State :=
  let e := s.nat f.pte 8
  let e1 := setBits e 2 1 1
  let e2 := if write then setBits e1 3 1 1 else e1
  if e2 = e then s else { s with mem := memStore s.mem (cellsOf f.pte 8 e2) }

/-- The translation that a core's TLB holds for a page. -/
def State.cachedFor (s : State) (core job page : Nat) : Option Cached :=
  s.tlb.find? (fun t => decide (t.core = core) && decide (t.job = job) && decide (t.page = page))

/-- The cached form of a translation found by a walk. -/
def Found.cache (f : Found) (core job va : Nat) (write : Bool) : Cached :=
  { core := core, job := job, page := va / 2 ^ 16, frame := f.pa / 2 ^ 16, writable := pteW f.entry
    dirty := pteD f.entry || write, key := BitVec.ofNat 4 (pteKey f.entry) }

/-- Holds a translation in a core's TLB, in place of one for the same page. -/
def State.fillTlb (s : State) (t : Cached) : State :=
  { s with tlb := t :: s.tlb.filter (fun x => !(decide (x.core = t.core) && decide (x.job = t.job) && decide (x.page = t.page))) }

/-- A held translation as a leaf entry has it. -/
def Cached.entry (t : Cached) : Nat := 0x15 + 2 * b2n t.writable + 8 * b2n t.dirty + 0x20 * t.key.toNat

/-- What a held translation gives an access: nothing when a write must first set D in its entry. A write without permission is refused,
even where the entry has become writable since (10 R217). A fault that it raises reports level 3.
DESIGN CHOICE: log 154. -/
def Cached.serve (t : Cached) (agent : Agent) (va : Nat) (write : Bool) : Option Walk :=
  match keyRefusal agent write t.key.toNat with
  | some c => some (.fault { kind := 0x07, cause := c, write := write, addr := va, level := 3 })
  | none =>
    if write && !t.writable then some (.fault { kind := 0x08, cause := 1, write := true, addr := va, level := 3 })
    else if write && !t.dirty then none
    else some (.ok { pa := t.frame * 2 ^ 16 + va % 2 ^ 16, pte := 0, entry := t.entry, level := 3, cached := true })

/-- Whether two results of a translation differ in nothing that the machine keeps: a walk that need set no bit. -/
def Walk.same (write : Bool) : Walk → Walk → Bool
  | .ok f, .ok h => decide (f.pa = h.pa) && decide (pteKey f.entry = pteKey h.entry) && pteA f.entry && (!write || pteD f.entry)
  | .fault t, .fault u => decide (t = u)
  | _, _ => false

/-- The translation through a core's TLB. Where it holds a translation that differs from what a walk gives now, the device chooses
which to use (10 R217).
DESIGN CHOICE: log 23. -/
def tlbWalk (s : State) (core : Nat) (agent : Agent) (job va : Nat) (write : Bool) : Walk :=
  let fresh := walk s agent job va write
  match (s.cachedFor core job (va / 2 ^ 16)).bind (fun t => t.serve agent va write) with
  | none => fresh
  | some r => if fresh.same write r then fresh else if Config.freeNat s.fresh va % 2 = 0 then fresh else r

/-- The agent of a group's accesses. -/
def Group.agent (g : Group) : Agent := .group g.role g.keymask

/-- The translation of a group's global address: a lane whose last-page register holds the page with permission for the access uses it
(07 R155). -/
def translate (s : State) (g : Group) (lane : Option Nat) (va : Nat) (write : Bool) : Walk :=
  match lane.bind (fun l => Assoc.find l g.lastPage) with
  | some t =>
    if t.page = va / 2 ^ 16 ∧ (write = true → t.writable = true) then
      (t.serve g.agent va write).getD (tlbWalk s g.core g.agent g.job va write)
    else tlbWalk s g.core g.agent g.job va write
  | none => tlbWalk s g.core g.agent g.job va write

/-! ### Windows (07 R142 to R149) -/

/-- What a virtual address reaches, before the window's own rule. -/
inductive Window where
  | global
  | pod (chip off : Nat)
  | priv (off : Nat)
  | spad (off : Nat)
  | cluster (off : Nat)
  | die (off : Nat)
  | reserved
  deriving DecidableEq, Repr

/-- The window of a virtual address. -/
def windowOf (va : Nat) : Window :=
  if va < 0x00FA000000000000 then .global
  else if va < 0x00FC000000000000 then .pod (bitsOf va 41 8) (bitsOf va 0 41)
  else if 0x00FF000000000000 ≤ va ∧ va < 0x00FF000000100000 then .priv (va - 0x00FF000000000000)
  else if 0x00FF000100000000 ≤ va ∧ va < 0x00FF000100200000 then .spad (va - 0x00FF000100000000)
  else if 0x00FF000200000000 ≤ va ∧ va < 0x00FF000202000000 then .cluster (va - 0x00FF000200000000)
  else if 0x00FF000300000000 ≤ va ∧ va < 0x00FF000304000000 then .die (va - 0x00FF000300000000)
  else .reserved

/-- A window fault (07 R143): a page fault of CAUSE 2. -/
def windowFault (va : Nat) (write : Bool) : Trap := { kind := 0x08, cause := 2, write := write, addr := va }

/-- This module's chip number (12 R266). -/
def State.chipId (s : State) : Nat := s.ctlNat .fabric 0 4 % 256

/-- Whether a chip is a member of the pod and reachable (12 R266). -/
def State.member (s : State) (c : Nat) : Bool := (s.ctlByte .fabric (0x20 + c / 8)).getLsbD (c % 8)

/-- The key of a unit: its launch and index. -/
def unitKey (launch ix : Nat) : Nat := 65536 * launch + ix

/-- A group's unit. -/
def State.unitOf (s : State) (g : Group) : Option LUnit := Assoc.find (unitKey g.launchid.toNat g.unitix.toNat) s.units

/-- A group's launch. -/
def State.launchOf (s : State) (g : Group) : Option Launch := Assoc.find g.launchid.toNat s.launches

/-- The first address of lane `l`'s private slice (07 R145). -/
def State.lanePrivate (s : State) (g : Group) (l : Nat) : Nat :=
  s.privBase g.job + (32 * (192 * g.core + g.frame) + l) * 0x100000

/-- The unit that owns slice `c` of a group's cluster (07 R148). -/
def State.clusterUnit (s : State) (g : Group) (c : Nat) : Option LUnit :=
  match s.launchOf g with
  | none => none
  | some l =>
    if l.flags.getLsbD 11 && decide (c < l.perclu) then
      Assoc.find (unitKey g.launchid.toNat (g.unitix.toNat / l.perclu * l.perclu + c)) s.units
    else none

/-- Whether a unit's scratchpad allocation is still held: until it retires, or with a lost member until its whole cluster has (02 R41, R45). -/
def State.holdsSpad (s : State) (u : LUnit) : Bool :=
  !u.retired || (u.memberLost && s.units.any (fun x => decide (x.2.launch = u.launch) && !x.2.retired &&
    (match Assoc.find u.launch s.launches with | some l => decide (x.2.ix / l.perclu = u.ix / l.perclu) | none => false)))

/-- A place that an access reaches. -/
inductive Place where
  /-- A flat address of this module; `found` for a translated page. -/
  | here (flat : Nat) (found : Option Found)
  /-- An address on another chip: chip and offset. -/
  | chip (c off : Nat)
  | fault (t : Trap)
  | held (pte : Nat)
  deriving DecidableEq, Repr

/-- The place of a translated global address; an unpopulated physical address raises a poison fault (07 R150), and one whose slice is
being taken over is held (13 R308). -/
def Walk.place (s : State) (va : Nat) (write : Bool) : Walk → Place
  | .ok f =>
    if s.homeWaits f.pa then .held f.pte
    else if s.populated f.pa then .here f.pa (some f) else .fault { kind := 0x0F, cause := 1, write := write, addr := va, cfg := some f.pa }
  | .fault t => .fault t
  | .held p => .held p

/-- The place that a virtual address names for a group, by the window's rule; `lane` is the lane of a lane access, none for a
uniform one, which has no private window (18 R468). -/
def State.place (s : State) (g : Group) (lane : Option Nat) (va : Nat) (write : Bool) : Place :=
  let glob (a : Nat) : Place := (translate s g lane a write).place s a write
  if va ≥ 2 ^ 56 then .fault (windowFault va write)
  else
    match windowOf va with
    | .global => glob va
    | .pod c off =>
      if c = s.chipId then glob off else if s.member c then .chip c off else .fault (windowFault va write)
    | .priv off =>
      match lane with
      | some l => glob (s.lanePrivate g l + off)
      | none => .fault (windowFault va write)
    | .spad off =>
      match s.unitOf g with
      | some u => if off < u.spadLen then .here (paSpad u.core (u.spadBase + off)) none else .fault (windowFault va write)
      | none => .fault (windowFault va write)
    | .cluster off =>
      match s.clusterUnit g (bitsOf off 21 4) with
      | some u =>
        if bitsOf off 0 21 < u.spadLen ∧ s.holdsSpad u = true then
          .here (paSpad u.core (u.spadBase + bitsOf off 0 21)) none
        else .fault (windowFault va write)
      | none => .fault (windowFault va write)
    | .die off =>
      let d := bitsOf off 25 1
      let y := bitsOf off 0 25
      let gr := s.dieGrant g.job d
      if gr.1 ≤ y ∧ y < gr.1 + gr.2 then .here (paDie d y) none else .fault (windowFault va write)
    | .reserved => .fault (windowFault va write)

/-- Whether a flat address lies in a scratchpad line that carries a weight mark (07 R160). -/
def State.marked (s : State) (flat : Nat) : Bool := Assoc.get false s.marks (flat / 256)

/-- Holds the node entries that a walk read. -/
def State.fillNodes (s : State) (job va : Nat) (ns : List (Nat × Nat)) : State :=
  { s with nodes := ns.foldl (fun t n =>
      let c : NodeCached := { job := job, level := n.1, high := va / 2 ^ levelShift n.1, entry := n.2 }
      if t.contains c then t else c :: t.filter (fun x => !(decide (x.job = job) && decide (x.level = n.1) && decide (x.high = c.high)))) s.nodes }

/-- Records a translation of a global address that a check walked for: the entry's A and D bits, the core's TLB and the walkers' node
entries. -/
def State.useTranslation (s : State) (core job va : Nat) (write : Bool) (f : Found) : State :=
  if f.cached then s else ((s.setAD f write).fillTlb (f.cache core job va write)).fillNodes job va f.nodes

end Sys2Proof.Machine
end

