-- ==== Sys2Proof/Machine/MemAccess.lean ====
section
/-! DEFINITION. Memory instructions of lanes and of the uniform pipe: their check phase (17 R412, 18 R456, R467), the accesses they make
(07 R153, 09 R192), and the order in which accesses may take effect (09 R196, R197). -/

namespace Sys2Proof.Machine

/-! ### The check phase -/

/-- The address of lane `l`: a base pair plus an offset, modulo 2^64 (17 R412). -/
def Ctx.laneAddr (c : Ctx) (a : BitVec 6) (off : Int) (l : Nat) : Nat :=
  (((pairNat (lane (c.val a 0) l) (lane (c.val a 1) l) : Nat) + off) % 2 ^ 64).toNat

/-- A misaligned-access trap. -/
def misaligned (va : Nat) (write : Bool) : Trap := { kind := 0x06, write := write, addr := va }

/-- One checked access of a lane (or of the uniform pipe, lane 0): its address and the place it reaches. -/
structure Checked where
  lane : Nat
  va : Nat
  place : Place
  deriving DecidableEq, Repr

/-- The traps of one checked access: alignment, then what its place raises; a vector-role load from a marked line is refused
(07 R160), and an atomic does not read a poisoned line (10 R229). -/
def Checked.traps (c : Ctx) (x : Checked) (n : Nat) (write atomic : Bool) : List Trap :=
  (if x.va % n ≠ 0 then [misaligned x.va write] else []) ++
  (match x.place with
   | .fault t => [t]
   | .here flat _ =>
     (if (!write || atomic) && decide (c.g.role = .vector) && c.s.marked flat then
        [{ kind := 0x07, cause := 3, write := write, addr := x.va }] else []) ++
     (if atomic && c.s.poisoned flat then [{ kind := 0x0F, cause := 1, write := write, addr := x.va }] else [])
   | _ => [])

/-- The accesses of the active lanes of a lane memory instruction. -/
def Ctx.checkLanes (c : Ctx) (m : Mask) (addr : Nat → Nat) (write : Bool) : List Checked :=
  (lanesOf m).map (fun l => { lane := l, va := addr l, place := c.s.place c.g (some l) (addr l) write })

/-- The single access of a uniform memory instruction. -/
def Ctx.checkUniform (c : Ctx) (va : Nat) (write : Bool) : List Checked :=
  [{ lane := 0, va := va, place := c.s.place c.g none va write }]

/-- The trap that a lane instruction's checks raise, if any: the worst of each lane, merged over the lanes (10 R222). -/
def laneTraps (c : Ctx) (n : Nat) (write atomic : Bool) (xs : List Checked) : List Trap :=
  (mergeLanes (xs.filterMap (fun x => (worst (x.traps c n write atomic)).map (fun t => (x.lane, t))))).toList

/-- The trap of a uniform access: LANES is 0. -/
def uniformTraps (c : Ctx) (n : Nat) (write atomic : Bool) (xs : List Checked) : List Trap :=
  xs.flatMap (fun x => x.traps c n write atomic)

/-- The migrating entry that holds one of the accesses, if any (10 R231). -/
def heldBy (xs : List Checked) : Option (Nat × Nat) :=
  xs.findSome? (fun x => match x.place with | .held p => some (p, x.va) | _ => none)

/-- The global address that an access of lane `l` translates. -/
def Ctx.globalAddr (c : Ctx) (l va : Nat) : Nat :=
  match windowOf va with
  | .priv off => c.s.lanePrivate c.g l + off
  | .pod _ off => off
  | _ => va

/-- The state with every translation that the checks used recorded (10 R215, R217). -/
def Ctx.useAll (c : Ctx) (write : Bool) (xs : List Checked) : State :=
  xs.foldl (fun s x =>
    match x.place with
    | .here _ (some f) => s.useTranslation c.g.core c.g.job (c.globalAddr x.lane x.va) write f
    | _ => s) c.s

/-- A group whose lanes hold the translations of their accesses in their last-page registers (07 R155). -/
def Ctx.loadPages (c : Ctx) (write : Bool) (xs : List Checked) (g : Group) : Group :=
  { g with lastPage := xs.foldl (fun t x =>
      match x.place with
      | .here _ (some f) => Assoc.put x.lane (f.cache g.core g.job (c.globalAddr x.lane x.va) write) t
      | _ => t) g.lastPage }

/-- The moment of the latest change of a translation that the checks used.
DEDUCED: log 10. -/
def Ctx.since (c : Ctx) (xs : List Checked) : Nat :=
  xs.foldl (fun t x =>
    match x.place with
    | .here _ (some f) => if f.cached then t else max t (c.s.lastWrite ((List.range 8).map (fun i => f.pte + i)))
    | _ => t) 0

/-- The global address that a uniform access translates: the pod window of this chip names its own global addresses. -/
def transVa (va : Nat) : Nat := match windowOf va with | .pod _ off => off | _ => va

/-- Groups of the job whose spill regions a global address lies in are marked (04 R83). -/
def State.noteSpill (s : State) (job gva : Nat) : State :=
  let b := s.privBase job
  if b ≤ gva ∧ gva % 2 ^ 20 < 0xC000 then
    match Assoc.find ((gva - b) / 2 ^ 25) s.groups with
    | some g => if g.job = job ∧ g.spillTouched = false then s.setGroup ((gva - b) / 2 ^ 25) { g with spillTouched := true } else s
    | none => s
  else s

/-- Whether an access of the issuing group lies in its own spill region. -/
def Ctx.touchesSpill (c : Ctx) (xs : List Checked) : Bool :=
  xs.any (fun x => match x.place with
    | .here _ _ => decide ((c.globalAddr x.lane x.va - c.s.privBase c.g.job) / 2 ^ 25 = c.key) &&
        decide (c.s.privBase c.g.job ≤ c.globalAddr x.lane x.va) && decide (c.globalAddr x.lane x.va % 2 ^ 20 < 0xC000)
    | _ => false)

/-- The state with the translations of a memory instruction recorded, and other groups' spill regions that it touches marked.
DEDUCED: log 24. -/
def Ctx.useMem (c : Ctx) (write : Bool) (xs : List Checked) : State :=
  xs.foldl (fun s x => match x.place with | .here _ _ => s.noteSpill c.g.job (c.globalAddr x.lane x.va) | _ => s) (c.useAll write xs)

/-- A group whose access is held waits with WAITKIND 6 and issues the instruction again on release (10 R231). -/
def Ctx.hold (c : Ctx) (va : Nat) (write : Bool) : State :=
  let g := { c.g with wait := .held va write, waitkind := 6, waitaddr := BitVec.ofNat 64 va, waitSince := c.now }
  { c.s.setGroup c.key g with issue := none }

/-! ### Accesses -/

/-- The chip and the first address of a checked access; no chip for this module. -/
def Checked.target (x : Checked) : Option (Option Nat × Nat) :=
  match x.place with
  | .here flat _ => some (none, flat)
  | .chip ch off => some (some ch, off)
  | _ => none

/-- The distinct sectors of a list of checked accesses, in order of first use. -/
def sectorsOf (xs : List Checked) : List (Option Nat × Nat) :=
  ((xs.filterMap (fun x => x.target)).map (fun t => (t.1, t.2 / 64))).eraseDups

/-- One read access per sector (07 R153): each lane's bytes go to its result slots. -/
def readAccesses (n : Nat) (xs : List Checked) : List Access :=
  (sectorsOf xs).map (fun sec =>
    { chip := sec.1
      kind := .read (xs.flatMap (fun x =>
        match x.target with
        | some (ch, a) => if ch = sec.1 ∧ a / 64 = sec.2 then (List.range n).map (fun j => (a + j, 16 * x.lane + j)) else []
        | none => [])) })

/-- The bytes that the lanes of one store leave at an address: where several lanes name it, the device chooses which lane's value
remains (09 R196). -/
def winner (fresh : Nat) (xs : List Checked) (t : Option Nat × Nat) : Nat :=
  let ls := (xs.filter (fun x => decide (x.target = some t))).map (fun x => x.lane)
  match ls with
  | [l] => l
  | _ => ls.getD (Config.freeNat fresh t.2 % ls.length) 0

/-- One write access per sector: `data l` is lane l's bytes.
DEDUCED: log 27. -/
def writeAccesses (fresh : Nat) (data : Nat → List Byte) (xs : List Checked) : List Access :=
  let targets := (xs.filterMap (fun x => x.target)).eraseDups
  (sectorsOf xs).map (fun sec =>
    { chip := sec.1
      kind := .write (targets.flatMap (fun t =>
        if t.1 = sec.1 ∧ t.2 / 64 = sec.2 then (data (winner fresh xs t)).mapIdx (fun j b => (t.2 + j, b)) else []))
      lanes := xs.foldl (fun m x =>
        match x.target with
        | some t => if t.1 = sec.1 ∧ t.2 / 64 = sec.2 then m ||| laneBit x.lane else m
        | none => m) 0 })

/-- The addresses an access touches. -/
def Access.addrs (a : Access) : List Nat := a.kind.bytes

/-- Whether two accesses touch a common byte. -/
def Access.overlaps (a b : Access) : Bool := decide (a.chip = b.chip) && a.addrs.any (fun x => b.addrs.contains x)

/-- Whether an access writes. -/
def Access.writes (a : Access) : Bool := match a.kind with | .read _ => false | _ => true

/-- Numbers a list from zero. -/
def numbered {α : Type} (xs : List α) : List (Nat × α) := xs.mapIdx (fun i x => (i, x))

/-- The state with a memory operation in flight. -/
def State.addOp (s : State) (op : MemOp) : State :=
  { s with ops := Assoc.put s.nextId op s.ops, nextId := s.nextId + 1 }

/-- Whether two operations of one group are related by program order: their fragments shared lanes or fused (09 R196). -/
def MemOp.before (e f : MemOp) : Bool :=
  decide (e.group = f.group) && decide (e.po < f.po) && decide (e.owner &&& f.owner ≠ 0)

/-- Whether an ordering operation has a scope that enters the module's visibility order (09 R203). -/
def wideScope (scope : Option (BitVec 3)) : Bool := match scope with | some x => wide x.toNat | none => false

/-- Whether an operation only stores and orders nothing. -/
def MemOp.plainStore (o : MemOp) : Bool := o.dest == .none && o.release.isNone && o.acquire.isNone && !o.flagged

/-- The rows of 09 R197 that keep an earlier operation `e` before an access `x` of the later operation `f` of the same group:
common bytes (row 1), an acquire (row 2), a release (row 3), a release before an acquire (row 4), a store before a FENCER between the two
(row 6), a store before an ordered flag (row 7).
At pod scope the replies of other chips count, and for a release before an acquire at any wide scope (12 R274). An acquire at a narrower
scope lets a plain store of its lanes pass, which its value then respects (`MemOp.passed`). A release at a narrower scope does not wait: it carries what has not taken effect
yet (`State.viewOf`), unless it goes to another chip.
DESIGN CHOICE: log 10. -/
def keptBefore (e f : MemOp) (x : Access) : Bool :=
  e.before f &&
    (e.accs.any (fun y => y.2.overlaps x) ||
     (e.acquiring.isSome && (e.open_ || !e.sent.isEmpty) && (wideScope e.acquiring || e.release.isSome || !f.plainStore)) ||
     ((wideScope f.release || (f.release.isSome && x.chip.isSome)) && (e.open_ || (decide (f.release = some 5) && !e.sent.isEmpty))) ||
     (wideScope e.release && wideScope f.acquire && (e.open_ || !e.sent.isEmpty)) ||
     (decide (e.po < f.after) && e.dest == .none && e.open_) ||
     (f.flagged && x.chip.isNone && e.accs.any (fun y => y.2.chip.isNone && y.2.writes)))

/-- Whether every earlier access that stands before the issuing fragment has taken effect: the group's own, and those that it acquired. -/
def Ctx.drained (c : Ctx) : Bool :=
  c.s.ops.all (fun o => !(decide (o.2.group = c.key) && decide (o.2.owner &&& c.f.mask ≠ 0) && o.2.open_)) &&
  c.s.debtsPaid c.g c.f.mask c.g.po none

/-- Whether the group's earlier accesses have also been answered by other chips (12 R274). -/
def Ctx.drainedRemote (c : Ctx) : Bool :=
  c.drained &&
  c.s.ops.all (fun o => !(decide (o.2.group = c.key) && decide (o.2.owner &&& c.f.mask ≠ 0) && !o.2.sent.isEmpty))

/-! ### Loads and stores -/

/-- The set bit and opcode of an instruction, bits [31:24] of its word. -/
def opcodeOf (i : Instr) : Nat := match encode i with | some w => w / 2 ^ 24 | none => 0

/-- A memory operation issued by a context for an instruction. -/
def Ctx.newOp (c : Ctx) (i : Instr) (accs : List Access) (dest : Dest) : MemOp :=
  { group := c.key, owner := c.f.mask, po := c.g.po, pcword := c.f.pc.low, accs := numbered accs, dest := dest
    opc := opcodeOf i, after := laneMax c.g.order.fencer c.f.mask, issue := c.g.issues, slot := c.slot, size := accs.length }

/-- Whether any access goes to another chip. -/
def anyRemote (accs : List Access) : Bool := accs.any (fun a => a.chip.isSome)

/-- The groups of a core stall before a remote access while the core's ticket table has no free entry (12 R281). -/
def Ctx.remoteStall (c : Ctx) (accs : List Access) : Bool :=
  anyRemote accs && (List.range 32).all (fun e => (Assoc.find (32 * c.g.core + e) c.s.rtkt).isSome)

/-- The group after it issues a memory operation: its destinations are busy, program order advances, and a load of another chip
suspends it with WAITKIND 5 (17 R413, 12 R270). -/
def Ctx.afterIssue (c : Ctx) (g : Group) (id : Nat) (busy : List Reg) (suspend : Bool) : Group :=
  let g1 := { g with busy := g.busy ++ busy, po := g.po + 1 }
  if suspend then { g1 with wait := .remote id, waitkind := 5, waitSince := c.now } else g1

/-- The number of accesses that go to other chips. -/
def remoteCount (accs : List Access) : Nat := accs.countP (fun a => a.chip.isSome)

/-- The ordered-flag stores of a group to other chips that have not been sent: they are not in CTRREMOTE yet (12 R276, 20 R497). -/
def State.unsentFlags (s : State) (key : Nat) : Nat :=
  s.ops.foldl (fun n o => if o.2.flagged && decide (o.2.group = key) then n + remoteCount (o.2.accs.map (fun a => a.2)) else n) 0

/-- Whether more stores to other chips would carry the remote counter past 65,535 (08 R179). -/
def Ctx.remoteFull (c : Ctx) (n : Nat) : Bool := decide (65535 < c.g.ctrRemote.toNat + c.s.unsentFlags c.key + n)

/-- The group after a memory instruction, its own spill region marked when the instruction touches it. -/
def Ctx.afterMem (c : Ctx) (xs : List Checked) (g : Group) (id : Nat) (busy : List Reg) (suspend : Bool) : Group :=
  let g1 := c.afterIssue g id busy suspend
  { g1 with spillTouched := g1.spillTouched || c.touchesSpill xs }

/-- A load of `n` bytes per lane into consecutive registers from `d`. -/
def laneLoad (i : Instr) (s : State) (d a : BitVec 6) (off : Int) (n regs : Nat) (signed : Bool)
    (acq : Option (BitVec 3)) : Host.Outcome State Fault Refusal :=
  let xs (c : Ctx) := c.checkLanes (c.active (shapeOf c.g i).guard) (c.laneAddr a off) false
  simple i s (fun c => c.accept a 2 anyTag ++ laneTraps c n false false (xs c))
    (fun c =>
      let act := c.active (shapeOf c.g i).guard
      match heldBy (xs c) with
      | some h => c.hold h.2 false
      | none =>
        let lines := (List.range regs).map (fun r => c.g.lbase + d.toNat + r)
        let g1 := lines.foldl (fun g n => g.setTag n tRAW) c.g
        let accs := readAccesses n (xs c)
        if act = 0 then c.retire g1 0
        else if c.remoteStall accs then c.withdrawn
        else
          let op := { c.newOp i accs (.lanes n signed lines act) with acquire := acq, since := c.since (xs c) }
          let s1 := (c.useMem false (xs c)).addOp op
          c.done s1 ((c.afterMem (xs c) (c.loadPages false (xs c) c.g) c.s.nextId (lines.map Reg.v) (anyRemote accs)).advance c.slot) 0)

/-- Lane `l`'s bytes of data registers from `d`. -/
def Ctx.laneData (c : Ctx) (d : BitVec 6) (n : Nat) (l : Nat) : List Byte :=
  (List.range n).map (fun j => BitVec.ofNat 8 ((lane (c.val d (j / 4)) l).toNat / 2 ^ (8 * (j % 4))))

/-- Chips that a list of accesses names. -/
def chipsOf (accs : List Access) : List Nat := (accs.filterMap (fun a => a.chip)).eraseDups

/-- A store of `n` bytes per lane from consecutive registers from `d`. -/
def laneStore (i : Instr) (s : State) (d a : BitVec 6) (off : Int) (n regs : Nat)
    (rel : Option (BitVec 3)) (flagged : Bool) : Host.Outcome State Fault Refusal :=
  let xs (c : Ctx) := c.checkLanes (c.active (shapeOf c.g i).guard) (c.laneAddr a off) true
  simple i s (fun c => c.accept a 2 anyTag ++ c.accept d regs anyTag ++ laneTraps c n true false (xs c))
    (fun c =>
      let act := c.active (shapeOf c.g i).guard
      match heldBy (xs c) with
      | some h => c.hold h.2 true
      | none =>
        let accs := writeAccesses c.s.fresh (c.laneData d n) (xs c)
        if act = 0 then c.retire c.g 0
        else if c.remoteStall accs || c.remoteFull (remoteCount accs) then c.withdrawn
        else
          let here := accs.flatMap (fun x => match x.kind, x.chip with | .write cells, none => cells | _, _ => [])
          let op := { c.newOp i accs .none with release := rel, flagged := flagged, whole := wholeLines here }
          let chips := chipsOf accs
          let g1 := chips.foldl (fun g ch => { g with targets := Assoc.set false g.targets ch true }) c.g
          let g2 := accs.foldl (fun g x => if x.chip.isSome && !flagged then g.ackUp x.kind.first else g) g1
          let s1 := (c.useMem true (xs c)).addOp op
          c.done s1 ((c.afterMem (xs c) (c.loadPages true (xs c) g2) c.s.nextId [] false).advance c.slot) 0)

/-- A uniform load of `n` bytes into one register or a pair. -/
def uniformLoad (i : Instr) (s : State) (d a : BitVec 5) (im : BitVec 11) (n : Nat) (st : BitVec 3) :
    Host.Outcome State Fault Refusal :=
  let va (c : Ctx) := (((c.kpair a : Nat) + im.toInt) % 2 ^ 64).toNat
  let xs (c : Ctx) := c.checkUniform (va c) false
  simple i s (fun c => uniformTraps c n false false (xs c))
    (fun c =>
      match heldBy (xs c) with
      | some h => c.hold h.2 false
      | none =>
        let ks := if n = 8 then [d.toNat, d.toNat + 1] else [d.toNat]
        let accs := readAccesses n (xs c)
        let s1 := (c.useMem false (xs c)).addOp { c.newOp i accs (.uniform n ks) with since := c.since (xs c) }
        if c.remoteStall accs then c.withdrawn
        else c.done s1 ((c.afterMem (xs c) c.g c.s.nextId (ks.map Reg.k) (anyRemote accs)).advance c.slot) st.toNat)

/-- A uniform store of `n` bytes from one register or a pair. -/
def uniformStore (i : Instr) (s : State) (d a : BitVec 5) (im : BitVec 11) (n : Nat) (st : BitVec 3) :
    Host.Outcome State Fault Refusal :=
  let va (c : Ctx) := (((c.kpair a : Nat) + im.toInt) % 2 ^ 64).toNat
  let xs (c : Ctx) := c.checkUniform (va c) true
  simple i s (fun c => uniformTraps c n true false (xs c))
    (fun c =>
      match heldBy (xs c) with
      | some h => c.hold h.2 true
      | none =>
        let data := leBytes n (pairNat (c.k d.toNat) (if n = 8 then c.k (d.toNat + 1) else 0))
        let accs := writeAccesses c.s.fresh (fun _ => data) (xs c)
        let g0 := (chipsOf accs).foldl (fun g ch => { g with targets := Assoc.set false g.targets ch true }) c.g
        let g1 := accs.foldl (fun g x => if x.chip.isSome then g.ackUp x.kind.first else g) g0
        let s1 := (c.useMem true (xs c)).addOp (c.newOp i accs .none)
        if c.remoteStall accs || c.remoteFull (remoteCount accs) then c.withdrawn
        else c.done s1 ((c.afterMem (xs c) g1 c.s.nextId [] false).advance c.slot) st.toNat)

end Sys2Proof.Machine
end

