-- ==== Sys2Proof/Machine/Descriptors.lean ====
section
/-! DEFINITION. Matrix descriptors, the memory that a matrix instruction reads or writes (17 R418 to R420, 18 R474), and the lines that
an operation in flight holds shackled (07 R157, R158). -/

namespace Sys2Proof.Machine

/-! ### Descriptors and vectors -/

/-- Fields of operand and tile memory descriptors. -/
def dBase (d : Nat) : Nat := bitsOf d 0 56
def dFmt (d : Nat) : BitVec 5 := BitVec.ofNat 5 (bitsOf d 64 5)
def dK (d : Nat) : Nat := 8 * bitsOf d 72 12
def dPitch (d : Nat) : Nat := 64 * bitsOf d 84 12
def dScale (d : Nat) : Nat := bitsOf d 96 32

/-- Whether a format carries S8 block scales (05 R105). -/
def carriesS8 (t : BitVec 5) : Bool :=
  decide (t = tE3M2 ∨ t = tE2M3 ∨ t = tE2M1 ∨ t = tI4 ∨ t = tU4 ∨ t = tI4X ∨ t = tI2T)

/-- The width class of a matrix format, by its K per step (01 R11); 0 for a format the matrix unit does not take. -/
def widthClass (t : BitVec 5) : Nat :=
  if t = tE2M1 ∨ t = tI4 ∨ t = tU4 ∨ t = tI4X ∨ t = tI2T then 128
  else if t = tE4M3 ∨ t = tE5M2 ∨ t = tI8 ∨ t = tU8 ∨ t = tE3M2 ∨ t = tE2M3 then 64
  else if t = tBF16 ∨ t = tFP16 ∨ t = tI16 then 32
  else if t = tF19 ∨ t = tFP32 then 8
  else 0

/-- Bytes of the elements of a vector, and of the whole vector with its scales (17 R420). -/
def vecElems (t : BitVec 5) (k : Nat) : Nat := (k * elemBits t + 7) / 8
def vecSpan (t : BitVec 5) (k : Nat) : Nat := vecElems t k + (if carriesS8 t then k / 32 else 0)

/-! ### The spans an instruction reads or writes -/

/-- The rows of a micro-tile, and its columns. -/
def tileRow (m : Nat) : Nat := 16 * (m / 4)
def tileCol (m : Nat) : Nat := 16 * (m % 4)

/-- The vectors that MMA reads of an operand for the 16 rows or columns from `v`. -/
def mmaSpans (d k v : Nat) (t : BitVec 5) : List (Nat × Nat) :=
  (List.range 16).map (fun i => (dBase d + dPitch d * (v + i), vecSpan t k))

/-- The memory that micro-tile `m` of an instruction reads: virtual address and length. -/
def MatrixOp.reads (o : MatrixOp) (m : Nat) : List (Nat × Nat) :=
  match o.instr with
  | .mma .. => mmaSpans o.descA (dK o.descA) (tileRow m) (dFmt o.descA) ++ mmaSpans o.descB (dK o.descA) (tileCol m) (dFmt o.descB)
  | .zld .. => (List.range 16).map (fun i => (dBase o.descA + dPitch o.descA * (tileRow m + i) + 4 * tileCol m, 64))
  | .qtile _ _ _ mem _ _ =>
    if mem = 1 then (List.range 64).map (fun i => (dBase o.descA + dPitch o.descA * i, if dFmt o.descA = tFP32 then 256 else 128)) else []
  | _ => []

/-- The rows of a tile memory descriptor, micro-tile by micro-tile. -/
def tileSpans (d : Nat) : List (Nat × Nat) :=
  (List.range 16).flatMap (fun m => (List.range 16).map (fun i => (dBase d + dPitch d * (tileRow m + i) + 4 * tileCol m, 64)))

/-- All that an instruction reads of memory, given its descriptors, each vector where the lowest micro-tile that reads it comes
(10 R222). -/
def matrixReads (i : Instr) (da db : Nat) : List (Nat × Nat) :=
  match i with
  | .mma .. =>
    mmaSpans da (dK da) 0 (dFmt da) ++ (List.range 4).flatMap (fun v => mmaSpans db (dK da) (16 * v) (dFmt db)) ++
      (List.range 3).flatMap (fun v => mmaSpans da (dK da) (16 * (v + 1)) (dFmt da))
  | .zld .. => tileSpans da
  | .qtile _ _ _ mem _ _ =>
    -- all 64 bits of the source address are an address, none of them a reserved field (17 R439)
    if mem = 1 then (List.range 64).map (fun r => (bitsOf da 0 64 + dPitch da * r, if dFmt da = tFP32 then 256 else 128)) else []
  | _ => []

/-- Bytes of the packed elements of a 64-element QTILE vector (17 R440). -/
def qtileBytes (tgt : Nat) : Nat := if tgt = 0 ∨ tgt = 3 then 32 else 64

/-- All that an instruction writes. -/
def matrixWrites (i : Instr) (da db : Nat) : List (Nat × Nat) :=
  match i with
  | .zst .. => tileSpans da
  | .zsta .. => tileSpans da
  | .qtile _ _ _ _ _ t => (List.range 128).map (fun v => (dBase db + 128 * v, qtileBytes t.toNat + 2))
  | _ => []

/-- The flat address of a byte of an operation's operands. -/
def MatrixOp.flat (o : MatrixOp) (va : Nat) : Nat := Assoc.get 0 o.pages (va / 65536) + va % 65536

/-! ### Shackled lines (07 R157, R158) -/

/-- The global lines that micro-tile `m` reads, as flat addresses divided by 256. -/
def MatrixOp.linesOf (o : MatrixOp) (m : Nat) : List Nat :=
  ((o.reads m).flatMap (fun sp =>
    (List.range ((sp.1 + sp.2 - 1) / 256 + 1 - sp.1 / 256)).map (fun i => o.flat ((sp.1 / 256 + i) * 256) / 256))).filter
      (fun ln => decide (ln < 2 ^ 44))

/-- The scratchpad sectors that micro-tile `m` reads, as flat addresses divided by 64. -/
def MatrixOp.sectorsOf (o : MatrixOp) (m : Nat) : List Nat :=
  ((o.reads m).flatMap (fun sp =>
    (List.range ((sp.1 + sp.2 - 1) / 64 + 1 - sp.1 / 64)).map (fun i => o.flat ((sp.1 / 64 + i) * 64) / 64))).filter
      (fun k => decide (2 ^ 46 ≤ k))

/-- Whether a micro-tile is still to run. -/
def Group.tileOpen (g : Group) (m : Nat) : Bool := !g.mtmask.getLsbD m

/-- Whether micro-tile `m` of an operation is still to run. QTILE has none of its own, and does not read MTMASK (17 R441). -/
def Group.stillRuns (g : Group) (o : MatrixOp) (m : Nat) : Bool := match o.instr with | .qtile .. => true | _ => g.tileOpen m

/-- Whether an operation still holds a line shackled: a micro-tile that has not completed reads it. -/
def Group.holdsLine (g : Group) (o : MatrixOp) (ln : Nat) : Bool :=
  (Assoc.find ln o.lines).isSome && (List.range 16).any (fun m => g.stillRuns o m && (o.linesOf m).contains ln)

/-- Whether an operation has still to read a byte: one of a line not shackled yet or, but for MMA (17 R423), of a scratchpad sector. -/
def Group.stillReads (g : Group) (o : MatrixOp) (flat : Nat) : Bool :=
  if flat < 2 ^ 52 then
    (Assoc.find (flat / 256) o.lines).isNone && (List.range 16).any (fun m => g.stillRuns o m && (o.linesOf m).contains (flat / 256))
  else
    (match o.instr with | .mma .. => false | _ => true) && (Assoc.find (flat / 64) o.banks).isNone &&
      (List.range 16).any (fun m => g.stillRuns o m && (o.sectorsOf m).contains (flat / 64))

/-- Whether the matrix instruction that a group has in flight has still to read some bytes: a store of an instruction after it waits
(07 R158). -/
def Group.readsStill (g : Group) (flats : List Nat) : Bool :=
  match g.matrixOp with
  | some m => flats.any (g.stillReads m)
  | none => false

/-- The lines that a group's operation holds shackled. -/
def Group.shackles (g : Group) : List Nat :=
  match g.matrixOp with
  | some o => (o.lines.map (fun x => x.1)).filter (g.holdsLine o)
  | none => []

/-- Whether lines can be shackled for a core ahead of their micro-tile: a tile fetch unit holds at most 512, a slice at most 2,048 (07 R158).
The micro-tile that completes next takes the lines of its own that it lacks as it completes, and releases those that no later one reads.
DESIGN CHOICE: log 139. -/
def State.shackleRoom (s : State) (core : Nat) (new : List Nat) : Bool :=
  let held := s.groups.flatMap (fun x => x.2.shackles.map (fun ln => (x.2.core, ln)))
  let home (ln : Nat) : Nat × Nat := (homeDie (256 * ln), homeSlice (256 * ln))
  new.isEmpty ||
  (decide (held.countP (fun x => decide (x.1 = core)) + new.length ≤ 512) &&
    new.all (fun ln => decide (held.countP (fun x => decide (home x.2 = home ln)) + new.countP (fun y => decide (home y = home ln)) ≤ 2048)))

/-- Whether any operation in flight holds the line of a flat address shackled.
DEDUCED: log 59. -/
def State.shackled (s : State) (flat : Nat) : Bool :=
  s.groups.any (fun x => match x.2.matrixOp with | some o => x.2.holdsLine o (flat / 256) | none => false)

/-- Whether an operation other than that of group `key` does. -/
def State.shackledFor (s : State) (key flat : Nat) : Bool :=
  s.groups.any (fun x => match x.2.matrixOp with | some o => decide (x.1 ≠ key) && x.2.holdsLine o (flat / 256) | none => false)

end Sys2Proof.Machine
end

