-- ==== Sys2Proof/Machine/Control.lean ====
section
/-! DEFINITION. Control: fragments, splits and the hinge (03 R68, R69; 04 R92), overlay slots (03 R62, 17 R432), window slides
(04 R85), and the control instructions (15 R349 to R356, R369; 16 R395; 17 R427, R433, R435; 18 R447, R463, R472). -/

namespace Sys2Proof.Machine

/-! ### The divergence stack -/

/-- Entry `n` of the divergence stack. One never pushed reads as R92's table has it, LINK 0x7F among its fields.
DESIGN CHOICE: log 124. -/
def Group.dEntry (g : Group) (n : Nat) : Entry := Assoc.get {} g.dstack n

/-- A group with an entry of the divergence stack stored. -/
def Group.setDEntry (g : Group) (n : Nat) (e : Entry) : Group := { g with dstack := Assoc.set {} g.dstack n e }

/-- A group with an entry pushed. -/
def Group.push (g : Group) (e : Entry) : Group := { g.setDEntry g.sptr e with sptr := g.sptr + 1 }

/-- A LINK after the entry at `n` has left the stack (04 R92). -/
def relink (n : Nat) (l : BitVec 7) : BitVec 7 := if l ≠ 0x7F ∧ n < l.toNat then l - 1 else l

/-- A group with the entry at `n` removed: the entries above move down and every LINK above it falls by 1 (04 R92). -/
def Group.removeEntry (g : Group) (n : Nat) : Group :=
  let es := ((List.range g.sptr).filter (fun i => i ≠ n)).map (fun i =>
    { g.dEntry i with link := relink n (g.dEntry i).link })
  let fixLive (e : Entry) : Entry := { e with link := relink n e.link }
  { g with
    dstack := es.zipIdx.foldl (fun t x => Assoc.set {} t x.2 x.1) []
    sptr := g.sptr - 1
    live0 := fixLive g.live0
    live1 := fixLive g.live1 }

/-- Lanes arrive at the split record at `n`. -/
def Group.arrive (g : Group) (n : Nat) (m : Mask) : Group :=
  g.setDEntry n { g.dEntry n with arrived := (g.dEntry n).arrived ||| m }

/-- Whether a live slot's fragment stands at its hinge, where it issues nothing (03 R69). -/
def Group.atHinge (g : Group) (slot : Bool) : Bool :=
  let f := g.live slot
  decide (f.kind = 1) && decide (f.link ≠ 0x7F) && decide (f.pc = f.hinge)

/-- Whether the fragment that issued a geometric instruction stands right after it in its live slot, with no later instruction issued. -/
def Group.geoAt (g : Group) (o : GeoOp) : Bool :=
  !o.later && decide ((g.live o.slot).kind = 1) && decide ((g.live o.slot).mask = o.mask) && decide ((g.live o.slot).pc = o.pc.next)

/-- Whether the geometric instruction in flight can still return a live slot's fragment to itself (06 R140). -/
def Group.geoKeeps (g : Group) (slot : Bool) : Bool :=
  match g.geoOp with
  | some o => decide (o.slot = slot) && g.geoAt o
  | none => false

/-- A fragment at its hinge gives up its live slot and its lanes arrive at its split record (03 R69), once no geometric instruction can stop
it part-way.
DEDUCED: log 41. -/
def Group.hingeWait (g : Group) (slot : Bool) : Group :=
  if g.atHinge slot && !g.geoKeeps slot then (g.arrive (g.live slot).link.toNat (g.live slot).mask).setLive slot {} else g

/-- The highest split record all of whose lanes wait at its hinge or have exited. -/
def Group.fusable (g : Group) : Option Nat :=
  (List.range g.sptr).reverse.find? (fun n =>
    decide ((g.dEntry n).kind = 2) && decide ((g.dEntry n).mask &&& ~~~((g.dEntry n).arrived ||| g.exited) = 0))

/-- The fused fragment takes the record's entry, with the recorded mask less the exited lanes, the hinge as program counter and the
recorded hinge; without live lanes the record goes (03 R69). -/
def Group.fuse (g : Group) (n : Nat) : Group :=
  let r := g.dEntry n
  let m := r.mask &&& ~~~g.exited
  if m = 0 then g.removeEntry n
  else g.setDEntry n { mask := m, pc := r.pc, kind := 1, link := r.link, hinge := r.hinge }

/-- The runnable fragment pushed most recently. -/
def Group.topRunnable (g : Group) : Option Nat :=
  (List.range g.sptr).reverse.find? (fun n => decide ((g.dEntry n).kind = 1))

/-- Fills a free live slot from the stack. -/
def Group.refill (g : Group) (slot : Bool) : Group :=
  if (g.live slot).kind = 1 then g
  else
    match g.topRunnable with
    | some n => let e := g.dEntry n; (g.removeEntry n).setLive slot { e with link := relink n e.link }
    | none => g

/-- One round of settling: fragments at their hinges wait, a complete split fuses, free slots fill. It goes on in the same way after a
system-core write that breaks the relations of 04 R92.
DESIGN CHOICE: log 125. -/
def Group.settleOnce (g : Group) : Group :=
  let g1 := (g.hingeWait false).hingeWait true
  let g2 := match g1.fusable with | some n => g1.fuse n | none => g1
  (g2.refill false).refill true

/-- Settles a group's fragments before selection; 64 rounds reach the fixed point, since each fuses a split or changes nothing. -/
def Group.settle (g : Group) : Group := (List.range 64).foldl (fun g _ => g.settleOnce) g

/-- Memory operations in flight of a group whose lanes fused are joined: accesses before a hinge precede those after it (09 R196). -/
def joinOwners (key : Nat) (m : Mask) (ops : List (Nat × MemOp)) : List (Nat × MemOp) :=
  ops.map (fun o => if o.2.group = key ∧ o.2.owner &&& m ≠ 0 then (o.1, { o.2 with owner := o.2.owner ||| m }) else o)

/-- The masks of the splits that settle a group would fuse now: each split's recorded lanes. -/
def Group.fusedMasks (g g' : Group) : List Mask :=
  ((List.range g.sptr).filter (fun n => decide ((g.dEntry n).kind = 2) &&
    !((List.range g'.sptr).any (fun j => decide ((g'.dEntry j).kind = 2) && decide ((g'.dEntry j).mask = (g.dEntry n).mask))))).map
      (fun n => (g.dEntry n).mask)

/-- Settles one placed group. -/
def State.settle (s : State) (key : Nat) : State :=
  match Assoc.find key s.groups with
  | none => s
  | some g =>
    let fused := g.fusedMasks g.settle
    let g' := { g.settle with order := fused.foldl Order.join g.order }
    { s.setGroup key g' with ops := fused.foldl (fun o m => joinOwners key m o) s.ops }

/-! ### Overlay slots -/

/-- The key of a core's overlay slot; a core has four. -/
def slotKey (core j : Nat) : Nat := 4 * core + j

/-- Whether a group executes in an overlay, or holds an OVCALL record that returns to it. -/
def Group.usesOverlay (g : Group) (o : BitVec 8) : Bool :=
  (decide (g.live0.kind = 1) && decide (g.live0.pc.ovl = o)) || (decide (g.live1.kind = 1) && decide (g.live1.pc.ovl = o)) ||
  (List.range g.sptr).any (fun n => decide ((g.dEntry n).pc.ovl = o)) ||
  (List.range g.wdepth).any (fun n =>
    let r := Assoc.get (0 : BitVec 64) g.wstack n
    decide (bitsOf r.toNat 25 2 = 2) && decide (bitsOf r.toNat 0 8 = o.toNat))

/-- Whether a slot is bound: a placed group of its core uses the overlay, a hold names the slot, or it is loading (03 R62, 17 R432). A group
holds and uses until it has ended. -/
def State.slotBound (s : State) (core j : Nat) : Bool :=
  match Assoc.find (slotKey core j) s.slots with
  | none => false
  | some t =>
    t.loading.isSome ||
    s.groups.any (fun x => decide (x.2.core = core) && decide (x.2.stop ≠ .lost) &&
      (decide (x.2.hold = some j) ||
       (decide (x.2.job = t.job) && decide (x.2.code = t.code) && (x.2.usesOverlay t.ovl || decide (x.2.awaitOverlay = some t.ovl) ||
         (match x.2.wait with | .replay _ w => decide (t.ovl = BitVec.ofNat 8 w.toNat) | _ => false)))))

/-- The state with the free overlay slots of a core emptied, before one of them is bound anew. -/
def State.purgeSlots (s : State) (core : Nat) : State :=
  { s with slots := s.slots.filter (fun x => !(decide (x.1 / 4 = core) && !s.slotBound core (x.1 % 4))) }

/-- The slot of a core bound to an overlay of a job's image. -/
def State.slotOf (s : State) (core job : Nat) (code : BitVec 64) (o : BitVec 8) : Option Nat :=
  (List.range 4).find? (fun j =>
    s.slotBound core j &&
    (match Assoc.find (slotKey core j) s.slots with
     | some t => decide (t.job = job) && decide (t.code = code) && decide (t.ovl = o)
     | none => false))

/-- A free slot of a core.
DESIGN CHOICE: log 56. -/
def State.freeSlot (s : State) (core : Nat) : Option Nat := (List.range 4).find? (fun j => !s.slotBound core j)

/-- The bound slot of a group's overlay. -/
def State.overlay (s : State) (g : Group) (o : BitVec 8) : Option Slot :=
  match s.slotOf g.core g.job g.code o with
  | some j => Assoc.find (slotKey g.core j) s.slots
  | none => none

/-- Words of the overlay in which a fragment executes; 0 when no slot holds it. -/
def Ctx.overlayWords (c : Ctx) : Nat :=
  match c.s.overlay c.g c.f.pc.ovl with
  | some t => t.size / 4
  | none => 0

/-- The overlay-absent fault (10 R223): INFO is the overlay index. -/
def overlayAbsent (o : BitVec 8) : Trap := { kind := 0x0D, info := o.zeroExtend 64 }

/-! ### Transfers -/

/-- The word offset that a relative transfer names: n + 1 + the offset (14 R325). -/
def Ctx.relative (c : Ctx) (off : Int) : Int := (c.f.pc.off.toNat : Int) + 1 + off

/-- The illegal-instruction trap of a target or hinge outside the overlay. -/
def Ctx.targetTraps (c : Ctx) (t : Int) : List Trap := if 0 ≤ t ∧ t < c.overlayWords then [] else [illegal]

/-- A program counter in the current overlay. -/
def Ctx.pcAt (c : Ctx) (t : Int) : Pc := ⟨c.f.pc.ovl, BitVec.ofNat 14 t.toNat, false⟩

/-- A group whose issuing fragment continues at `pc`. -/
def Group.jump (g : Group) (slot : Bool) (pc : Pc) : Group := g.setLive slot { g.live slot with pc := pc }

/-- An illegal-convergence trap unless the group is one whole fragment (04 R85). -/
def Ctx.convergence (c : Ctx) : List Trap := if c.g.whole then [] else [{ kind := 0x03 }]

/-- NOP (17 R427). -/
def execNop (st : BitVec 3) (s : State) : Host.Outcome State Fault Refusal :=
  simple (.nop st) s (fun _ => []) (fun c => c.retire c.g st.toNat)

/-- BRA (15 R350): the target is checked whether or not the guard holds. -/
def execBra (q : BitVec 2) (o : BitVec 22) (s : State) : Host.Outcome State Fault Refusal :=
  perform (.bra q o) s (fun c => c.targetTraps (c.relative o.toInt)) (fun _ => false) (fun _ => [])
    (fun c => c.done c.s (c.g.jump c.slot (c.pcAt (c.relative o.toInt))) 0)

/-- The lanes that BRP takes: all live lanes of the fragment for P 7, otherwise those whose predicate bit is set. -/
def Ctx.taken (c : Ctx) (p : BitVec 3) : Mask := c.f.mask &&& c.p p.toNat

/-- A fragment split in two at a BRP (15 R352): the record is pushed, the taken child keeps the live slot, and the other takes the
other slot when it is free and is pushed otherwise. -/
def Group.split (g : Group) (slot : Bool) (taken : Mask) (target hinge : Pc) : Group :=
  let f := g.live slot
  let n : BitVec 7 := BitVec.ofNat 7 g.sptr
  let g1 := g.push { mask := f.mask, pc := hinge, kind := 2, link := f.link, hinge := f.hinge }
  let t : Entry := { mask := taken, pc := target, kind := 1, link := n, hinge := hinge }
  let u : Entry := { mask := f.mask &&& ~~~taken, pc := f.pc.next, kind := 1, link := n, hinge := hinge }
  let g2 := g1.setLive slot t
  if (g2.live (!slot)).kind = 1 then g2.push u else g2.setLive (!slot) u

/-- BRP (15 R352, R353). -/
def execBrp (p : BitVec 3) (o : BitVec 11) (h : BitVec 10) (s : State) : Host.Outcome State Fault Refusal :=
  perform (.brp p o h) s
    (fun c => c.targetTraps (c.relative o.toInt) ++ c.targetTraps (c.relative h.toInt)) (fun _ => false) (fun _ => [])
    (fun c =>
      let t := c.taken p
      let target := c.pcAt (c.relative o.toInt)
      if t = c.f.mask then c.done c.s (c.g.jump c.slot target) 0
      else if t = 0 then c.retire c.g 0
      else c.done c.s (c.g.split c.slot t target (c.pcAt (c.relative h.toInt))) 0)

/-- The traps of an indirect target: kA[31:14] nonzero, or a word at or beyond the overlay's end (15 R354). -/
def Ctx.indirectTraps (c : Ctx) (a : BitVec 5) : List Trap :=
  if (c.kf a).toNat < c.overlayWords ∧ (c.kf a).toNat < 2 ^ 14 then [] else [illegal]

/-- BRX (15 R354). -/
def execBrx (a : BitVec 5) (q : BitVec 2) (st : BitVec 3) (s : State) : Host.Outcome State Fault Refusal :=
  simple (.brx a q st) s (fun c => c.indirectTraps a)
    (fun c => c.done c.s (c.g.jump c.slot (c.pcAt (c.kf a).toNat)) st.toNat)

/-! ### Window slides (04 R82 to R86) -/

/-- A window record (04 R84). A call in word 16,383 records ROFF 0: its return offset does not fit the field.
DESIGN CHOICE: log 123. -/
def windowRecord (pc : Pc) (fr kind : Nat) : BitVec 64 :=
  BitVec.ofNat 64 (pc.ovl.toNat + 2 ^ 8 * (if pc.past then 0 else pc.off.toNat) + 2 ^ 22 * fr + 2 ^ 25 * kind)

/-- The top window record's fields. -/
def Group.topRecord (g : Group) : Nat := (Assoc.get (0 : BitVec 64) g.wstack (g.wdepth - 1)).toNat
def recordPc (r : Nat) : Pc := ⟨BitVec.ofNat 8 r, BitVec.ofNat 14 (r / 2 ^ 8), false⟩
def recordFr (r : Nat) : Nat := bitsOf r 22 3
def recordKind (r : Nat) : Nat := bitsOf r 25 2

/-- The checked accesses of a spill or fill of logical lines, one per line and live lane. -/
def Ctx.spillChecks (c : Ctx) (lines : List Nat) (write : Bool) : List (Nat × Checked) :=
  lines.flatMap (fun n => (lanesOf c.g.liveLanes).map (fun l =>
    let va := c.s.lanePrivate c.g l + 4 * n
    (n, { lane := l, va := va, place := (translate c.s c.g none va write).place c.s va write })))

/-- The logical lines that a slide up by `fr` spills. -/
def Group.spilled (g : Group) (fr : Nat) : List Nat :=
  let need := g.lbase + 8 * (fr + 1) + 48 - 256
  (List.range (need - g.reslo)).map (fun i => g.reslo + i)

/-- The new logical base of a slide down over the top record. -/
def Group.downBase (g : Group) : Nat := g.lbase - 8 * (recordFr g.topRecord + 1)

/-- The logical lines that a slide down fills. -/
def Group.filled (g : Group) : List Nat := (List.range (g.reslo - g.downBase)).map (fun i => g.downBase + i)

/-- The faults of spill or fill accesses, the lowest line and lane first; a fill that reads a poisoned line is refused. -/
def Ctx.spillTraps (c : Ctx) (xs : List (Nat × Checked)) (write : Bool) : List Trap :=
  xs.flatMap (fun x =>
    match x.2.place with
    | .fault t => [t]
    | .here flat _ => if !write && c.s.poisoned flat then [{ kind := 0x0F, cause := 1, addr := x.2.va }] else []
    | _ => [])

/-- The poison fault of a window instruction while a window register awaits poisoned data (10 R229). -/
def Ctx.windowPoison (c : Ctx) : List Trap :=
  match (List.range 48).find? (fun n => c.g.frec.ppoisv.getLsbD n) with
  | some n => [{ kind := 0x0F, entry := BitVec.ofNat 8 n }]
  | none => []

/-- Memory with the spilled lines stored in the lanes' private slices. -/
def Ctx.spill (c : Ctx) (s : State) (xs : List (Nat × Checked)) : State :=
  xs.foldl (fun s x =>
    match x.2.place with
    | .here flat _ => s.storeNat flat 4 (lane (c.g.line x.1) x.2.lane).toNat
    | _ => s) s

/-- A group with filled lines read back; lanes that have exited take undefined values (04 R85).
DEDUCED: log 38. -/
def Ctx.fill (c : Ctx) (g : Group) (xs : List (Nat × Checked)) (lines : List Nat) : Group :=
  lines.foldl (fun g n =>
    g.setLine n (Lanes.ofFn (fun l =>
      match xs.find? (fun x => decide (x.1 = n) && decide (x.2.lane = l.val)) with
      | some x =>
        match x.2.place with
        | .here flat _ => if c.g.spillTouched then Config.freeWord c.s.fresh (32 * n + l.val) else w32 (c.s.nat flat 4)
        | _ => 0
      | none => Config.freeWord c.s.fresh (32 * n + l.val)))) g

/-- The traps of a slide up with frame code `fr` (04 R85). -/
def Ctx.upTraps (c : Ctx) (fr : Nat) : List Trap :=
  (if c.g.wdepth ≥ 255 then [illegal] else []) ++ c.convergence ++ c.windowPoison ++
    c.spillTraps (c.spillChecks (c.g.spilled fr) true) true

/-- A group whose callee has moved into a new window: the registers above those it shares with its caller are undefined (04 R86). -/
def Ctx.callee (c : Ctx) (g : Group) : Group :=
  (List.range (g.lbase - c.g.lbase)).foldl (fun g i =>
    g.setLine (c.g.lbase + 48 + i) (Lanes.ofFn (fun l => Config.freeWord c.s.fresh (32 * (c.g.lbase + 48 + i) + l.val)))) g

/-- A slide up: spills, pushes the record and moves the window; `ret` is the return address recorded. It waits while a line that it spills
to is shackled (07 R157).
DESIGN CHOICE: log 119. -/
def Ctx.slideUp (c : Ctx) (fr kind : Nat) (ret : Pc) (pc : Pc) (stall : Nat) : State :=
  let lines := c.g.spilled fr
  let xs := c.spillChecks lines true
  match heldBy (xs.map (fun x => x.2)) with
  | some h => c.hold h.2 true
  | none =>
    if xs.any (fun x => match x.2.place with | .here flat _ => c.s.shackled flat || c.g.readsStill [flat] | _ => false) then c.withdrawn
    else
    let s1 := c.spill (c.useAll true (xs.map (fun x => x.2))) xs
    let g1 := { c.g with
      reslo := if lines.isEmpty then c.g.reslo else c.g.lbase + 8 * (fr + 1) + 48 - 256
      wstack := Assoc.set 0 c.g.wstack c.g.wdepth (windowRecord ret fr kind)
      wdepth := c.g.wdepth + 1
      lbase := c.g.lbase + 8 * (fr + 1) }
    c.done s1 ((c.callee g1).jump c.slot pc) stall

/-- The traps of a slide down that expects a record of `kind`. -/
def Ctx.downTraps (c : Ctx) (kind : Nat) : List Trap :=
  if c.g.wdepth = 0 ∨ recordKind c.g.topRecord ≠ kind then illegal :: c.convergence
  else c.convergence ++ c.windowPoison ++ c.spillTraps (c.spillChecks c.g.filled false) false

/-- A slide down: fills, pops the record and moves the window; RET continues at the recorded address. -/
def Ctx.slideDown (c : Ctx) (kind stall : Nat) : State :=
  let lines := c.g.filled
  let xs := c.spillChecks lines false
  match heldBy (xs.map (fun x => x.2)) with
  | some h => c.hold h.2 false
  | none =>
    let r := c.g.topRecord
    let g1 := c.fill c.g xs lines
    let g2 := { g1 with
      reslo := if lines.isEmpty then c.g.reslo else c.g.downBase
      wdepth := c.g.wdepth - 1
      lbase := c.g.downBase }
    c.done (c.useAll false (xs.map (fun x => x.2))) (g2.jump c.slot (if kind = 0 then recordPc r else c.f.pc.next)) stall

/-- CALL (15 R355). -/
def execCall (f : BitVec 3) (o : BitVec 21) (s : State) : Host.Outcome State Fault Refusal :=
  perform (.call f o) s (fun c => c.targetTraps (c.relative o.toInt)) (fun _ => false) (fun c => c.upTraps f.toNat)
    (fun c => c.slideUp f.toNat 0 c.f.pc.next (c.pcAt (c.relative o.toInt)) 0)

/-- CALLX (15 R356); its ST counts from completion (14 R317). -/
def execCallx (a : BitVec 5) (f : BitVec 3) (q : BitVec 2) (st : BitVec 3) (s : State) : Host.Outcome State Fault Refusal :=
  simple (.callx a f q st) s (fun c => c.indirectTraps a ++ c.upTraps f.toNat)
    (fun c => c.slideUp f.toNat 0 c.f.pc.next (c.pcAt (c.kf a).toNat) st.toNat)

/-- GROW (16 R395). -/
def execGrow (f : BitVec 3) (s : State) : Host.Outcome State Fault Refusal :=
  simple (.grow f) s (fun c => c.upTraps f.toNat)
    (fun c => c.slideUp f.toNat 1 ⟨0, 0, false⟩ c.f.pc.next 0)

/-- RET (18 R447). -/
def execRet (q : BitVec 2) (st : BitVec 3) (s : State) : Host.Outcome State Fault Refusal :=
  simple (.ret q st) s (fun c => c.downTraps 0) (fun c => c.slideDown 0 st.toNat)

/-- SHRINK (18 R447). -/
def execShrink (q : BitVec 2) (st : BitVec 3) (s : State) : Host.Outcome State Fault Refusal :=
  simple (.shrink q st) s (fun c => c.downTraps 1) (fun c => c.slideDown 1 st.toNat)

/-! ### Overlay transfers (17 R432 to R435) -/

/-- The overlay and word offset of an absolute PCword (14 R325). -/
def absolutePc (o : BitVec 22) : Pc := ⟨BitVec.ofNat 8 (o.toNat / 2 ^ 14), BitVec.ofNat 14 o.toNat, false⟩

/-- The traps of a transfer to a word of an overlay: absent, or a word beyond its end; while its slot loads, none yet. -/
def Ctx.overlayTraps (c : Ctx) (pc : Pc) : List Trap :=
  match c.s.overlay c.g pc.ovl with
  | none => [overlayAbsent pc.ovl]
  | some t => if t.loading.isSome ∨ pc.off.toNat < t.size / 4 then [] else [illegal]

/-- Whether the overlay's slot is still loading: the group waits without trap. -/
def Ctx.overlayLoading (c : Ctx) (o : BitVec 8) : Bool :=
  match c.s.overlay c.g o with
  | some t => t.loading.isSome
  | none => false

/-- OVCALL (17 R433). With a clear guard it raises none of its traps: SIZE(j) is not in the word.
DEDUCED: log 17. -/
def execOvcall (q : BitVec 2) (o : BitVec 22) (s : State) : Host.Outcome State Fault Refusal :=
  let pc := absolutePc o
  perform (.ovcall q o) s (fun _ => [])
    (fun c => c.overlayLoading pc.ovl)
    (fun c => (if c.g.wdepth ≥ 255 then [illegal] else []) ++ c.convergence ++ c.overlayTraps pc)
    (fun c =>
      let g1 := { c.g with
        wstack := Assoc.set 0 c.g.wstack c.g.wdepth (windowRecord c.f.pc.next 0 2)
        wdepth := c.g.wdepth + 1 }
      c.done c.s (g1.jump c.slot pc) 0)

/-- OVRET (17 R435): pops a record of KIND 2 and continues at its address. -/
def execOvret (q : BitVec 2) (st : BitVec 3) (s : State) : Host.Outcome State Fault Refusal :=
  perform (.ovret q st) s (fun _ => [])
    (fun c => c.overlayLoading (recordPc c.g.topRecord).ovl)
    (fun c =>
      (if c.g.wdepth = 0 ∨ recordKind c.g.topRecord ≠ 2 then [illegal]
       else match c.s.overlay c.g (recordPc c.g.topRecord).ovl with
         | none => [overlayAbsent (recordPc c.g.topRecord).ovl]
         | some _ => []) ++ c.convergence)
    (fun c => c.done c.s ({ c.g with wdepth := c.g.wdepth - 1 }.jump c.slot (recordPc c.g.topRecord)) st.toNat)

/-! ### Traps, exit and yield -/

/-- BKPT: a breakpoint trap (15 R349). -/
def execBkpt (im : BitVec 11) (st : BitVec 3) (s : State) : Host.Outcome State Fault Refusal :=
  simple (.bkpt im st) s (fun _ => [{ kind := 0x0E }]) (fun c => c.retire c.g st.toNat)

/-- The call record of a TRAP (11 R258). -/
def Ctx.trapRecord (c : Ctx) (service : Nat) (seq : BitVec 16) : List Byte :=
  leBytes 2 c.g.job ++ leBytes 1 c.g.core ++ leBytes 1 c.g.frame ++ leBytes 4 c.g.launchid.toNat ++
  leBytes 4 c.f.pc.low.toNat ++ leBytes 2 service ++ leBytes 1 c.g.groupix.toNat ++ leBytes 1 0 ++
  (List.range 8).flatMap (fun n => leBytes 4 (c.k n).toNat) ++ leBytes 2 seq.toNat ++ List.replicate 14 0

/-- TRAP (18 R463): waits until every earlier access has taken effect, and without an issue slot while its block's ring is full or disabled;
then writes the call record and suspends the whole group with WAITKIND 7.
DEDUCED: log 131. -/
def execTrap (im : BitVec 11) (st : BitVec 3) (s : State) : Host.Outcome State Fault Refusal :=
  perform (.trap im st) s (fun _ => [])
    (fun c =>
      let r := c.s.ring (16 + c.g.core / 16)
      !c.drained || (r.room && (!c.s.ringClear (16 + c.g.core / 16) ||
        c.g.readsStill ((List.range r.recordSize).map (fun i => r.base + r.recordSize * r.tail + i)))))
    (fun _ => [])
    (fun c =>
      if !(c.s.ring (16 + c.g.core / 16)).room then
        c.withdrawn.mapGroup c.key (fun g => { g.swapOut with wait := .trapRoom, waitSince := c.now })
      else
      let seq := c.g.trapSeq + 1
      let s1 := c.s.writeRing (16 + c.g.core / 16) (c.trapRecord im.toNat seq)
      let g1 := { c.g.advance c.slot with trapSeq := seq, wait := .trapCall seq st.toNat, waitkind := 7, waitSince := c.now }
      c.done s1 g1 st.toNat)

/-- The lowest class with a pending failure, in the order copy, matrix, remote, I/O (08 R181). -/
def Group.firstFailure (g : Group) : Option (EngineClass × Failure) :=
  [EngineClass.copy, .matrix, .remote, .io].findSome? (fun cl => (Assoc.find cl.code g.fails).map (fun f => (cl, f)))

/-- A group stops for the pending failures of a class, which are all cleared (08 R181). -/
def Ctx.raiseFailure (c : Ctx) (cl : EngineClass) (f : Failure) : State :=
  groupStop (c.s.setGroup c.key { c.g with fails := Assoc.del cl.code c.g.fails }) c.key c.slot c.f.pc f.trap (some cl)
    f.more (some (f.pcword.zeroExtend 64))

/-- A group whose lanes `m` have executed EXIT: they are no longer live and count as arrived in every open split (02 R18, 15 R369). -/
def Group.exitLanes (g : Group) (slot : Bool) (m : Mask) : Group :=
  let g1 := { g.setLive slot {} with exited := g.exited ||| m }
  (List.range g.sptr).foldl (fun g n =>
    if (g.dEntry n).kind = 2 then g.arrive n ((g.dEntry n).mask &&& m) else g) g1

/-- EXIT (15 R369): a pending failure stops the group first; otherwise the issuing fragment ceases. -/
def execExit (q : BitVec 2) (st : BitVec 3) (s : State) : Host.Outcome State Fault Refusal :=
  simple (.exit q st) s (fun _ => []) (fun c =>
    match c.g.firstFailure with
    | some (cl, f) => c.raiseFailure cl f
    | none =>
      let g1 := c.g.exitLanes c.slot c.f.mask
      if g1.liveLanes = 0 then c.done c.s { g1.swapOut with ending := true, exitPc := c.f.pc.low } st.toNat
      else c.done c.s g1 st.toNat)

/-- Whether a group could issue but for a resident slot. -/
def Group.wantsSlot (g : Group) : Bool :=
  !g.resident && decide (g.stop = .running) && decide (g.wait = .none) && !g.ending && !g.cancelled && g.awaitOverlay.isNone

/-- Resident groups of a partition; it has 24 slots (01 R9, 03 R67). -/
def State.residents (s : State) (part : Nat) : Nat := (s.groups.filter (fun x => x.2.resident && decide (x.2.partNo = part))).length

/-- Whether a core has a free resident slot. -/
def State.coreHasSlot (s : State) (core : Nat) : Bool := (List.range 4).any (fun p => decide (s.residents (4 * core + p) < 24))

/-- Gives a group the youngest age stamp of its partition (03 R67). -/
def State.restamp (s : State) (key : Nat) : State :=
  match Assoc.find key s.groups with
  | none => s
  | some g =>
    let p := s.part g.partNo
    (s.setPart g.partNo { p with nextAge := p.nextAge + 1 }).setGroup key { g with age := p.nextAge }

/-- YIELD (18 R472): the youngest age stamp; the group is swapped out when a ready swapped-out group of its core waits for a slot
and none is free, behind which it then waits itself (03 R71). -/
def execYield (q : BitVec 2) (st : BitVec 3) (s : State) : Host.Outcome State Fault Refusal :=
  simple (.yield q st) s (fun _ => []) (fun c =>
    let s1 := (c.retire c.g st.toNat).restamp c.key
    if s1.groups.any (fun x => decide (x.2.core = c.g.core) && x.2.wantsSlot) && !s1.coreHasSlot c.g.core then
      s1.mapGroup c.key (fun g => { g.swapOut with readySince := s1.clock + 1 })
    else s1)

end Sys2Proof.Machine
end

