-- ==== Sys2Proof/Machine/Geometry.lean ====
section
/-! DEFINITION. Exact geometric predicates (06): the expressions of R506, the stages of R130, simulation of simplicity (R138), and
ORIENT2, ORIENT3, INCIRC, INSPH and SEGX. -/

namespace Sys2Proof.Machine

/-! ### Dyadic numbers -/

/-- The number m × 2^e. -/
structure Dy where
  m : Int
  e : Int
  deriving DecidableEq, Repr

def Dy.zero : Dy := ⟨0, 0⟩
def Dy.one : Dy := ⟨1, 0⟩
/-- The mantissa at a lower exponent. -/
def Dy.at_ (x : Dy) (q : Int) : Int := x.m * 2 ^ (x.e - q).toNat
def Dy.add (x y : Dy) : Dy := let q := min x.e y.e; ⟨x.at_ q + y.at_ q, q⟩
def Dy.neg (x : Dy) : Dy := ⟨-x.m, x.e⟩
def Dy.sub (x y : Dy) : Dy := x.add y.neg
def Dy.mul (x y : Dy) : Dy := ⟨x.m * y.m, x.e + y.e⟩
def Dy.abs (x : Dy) : Dy := ⟨x.m.natAbs, x.e⟩
/-- Whether x < y. -/
def Dy.lt (x y : Dy) : Bool := decide ((x.sub y).m < 0)

/-- x rounded to a significand of `p` bits with RNE and an unbounded exponent. -/
def Dy.round (p : Nat) (x : Dy) : Dy :=
  let n := x.m.natAbs
  let w := Nat.log2 n + 1
  if n = 0 then Dy.zero
  else if w ≤ p then x
  else
    let r := (roundQ 0 false n ((w - p : Nat) : Int) false).1
    ⟨if x.m < 0 then -(r : Int) else r, x.e + (w - p : Nat)⟩

/-- The exact value of a finite float. -/
def FVal.dy : FVal → Dy
  | .num n m e => ⟨if n then -(m : Int) else m, e⟩
  | _ => Dy.zero

/-! ### The expression of det M (06 R506) -/

/-- The operations with which an expression is evaluated. -/
structure Calc (α : Type) where
  add : α → α → α
  sub : α → α → α
  mul : α → α → α
  zero : α

variable {α : Type}

/-- Removes the element at a place of a list. -/
def dropAt (i : Nat) (xs : List α) : List α := xs.take i ++ xs.drop (i + 1)

/-- The determinant of `n` rows: 2 × 2 directly, otherwise by cofactors along the last column, summed in ascending row. -/
def detRows (c : Calc α) : Nat → List (List α) → α
  | 0, _ => c.zero
  | n + 1, rows =>
    match n with
    | 0 => (rows.getD 0 []).getD 0 c.zero
    | 1 =>
      let p := rows.getD 0 []
      let q := rows.getD 1 []
      c.sub (c.mul (p.getD 0 c.zero) (q.getD 1 c.zero)) (c.mul (p.getD 1 c.zero) (q.getD 0 c.zero))
    | _ =>
      (List.range (n + 1)).foldl (fun acc i =>
        let t := c.mul ((rows.getD i []).getD n c.zero) (detRows c n ((dropAt i rows).map (fun r => r.take n)))
        if (i + n) % 2 = 0 then c.add acc t else c.sub acc t) c.zero

/-- A translated row with the lifted column appended, its squares summed left to right. -/
def liftRow (c : Calc α) (lift : Bool) (row : List α) : List α :=
  if lift then
    match row.map (fun x => c.mul x x) with
    | [] => row
    | x :: xs => row ++ [xs.foldl c.add x]
  else row

/-- The determinant of points given by their coordinates: translated to the last point by `diff`, then expanded. -/
def detPoints (c : Calc α) (diff : Dy → Dy → α) (lift : Bool) (pts : List (List Dy)) : α :=
  let l := pts.getLastD []
  let rows := pts.dropLast.map (fun p => liftRow c lift (List.zipWith diff p l))
  detRows c rows.length rows

/-- A value of T0 with whether an operation overflowed or underflowed. -/
structure T0 where
  v : Dy
  bad : Bool
  deriving DecidableEq, Repr

/-- An operation's exact result outside the normal range of FP64. -/
def outside (x : Dy) : Bool :=
  decide (x.m ≠ 0) && ((⟨2 ^ 53 - 1, 971⟩ : Dy).lt x.abs || x.abs.lt ⟨1, -1022⟩)

/-- A rounded FP64 operation from its exact result. -/
def T0.of (x : Dy) (bad : Bool) : T0 := ⟨x.round 53, bad || outside x⟩

/-- The evaluations of the stages. -/
def calcT0 : Calc T0 :=
  { add := fun x y => T0.of (x.v.add y.v) (x.bad || y.bad), sub := fun x y => T0.of (x.v.sub y.v) (x.bad || y.bad)
    mul := fun x y => T0.of (x.v.mul y.v) (x.bad || y.bad), zero := ⟨Dy.zero, false⟩ }
def calcP0 : Calc Dy :=
  { add := fun x y => (x.add y).round 53, sub := fun x y => (x.add y).round 53, mul := fun x y => (x.mul y).round 53, zero := Dy.zero }
def calcT1 : Calc Dy :=
  { add := fun x y => (x.add y).round 106, sub := fun x y => (x.sub y).round 106, mul := fun x y => (x.mul y).round 106, zero := Dy.zero }
def calcExact : Calc Dy := { add := Dy.add, sub := Dy.sub, mul := Dy.mul, zero := Dy.zero }

def evalT0 (lift : Bool) (pts : List (List Dy)) : T0 := detPoints calcT0 (fun x y => T0.of (x.sub y) false) lift pts
def evalP0 (lift : Bool) (pts : List (List Dy)) : Dy := detPoints calcP0 (fun x y => ((x.sub y).round 53).abs) lift pts
def evalT1 (lift : Bool) (pts : List (List Dy)) : Dy := detPoints calcT1 Dy.sub lift pts
def evalExact (lift : Bool) (pts : List (List Dy)) : Dy := detPoints calcExact Dy.sub lift pts

/-- The sign of a number. -/
def signOf (x : Int) : Int := if x < 0 then -1 else if x = 0 then 0 else 1

/-! ### Simulation of simplicity (06 R138) -/

/-- A polynomial in ε: (exponent, coefficient) by rising exponent, no coefficient zero. -/
abbrev Poly := List (Nat × Dy)

/-- Adds a term. -/
def Poly.insert (p : Poly) (k : Nat) (x : Dy) : Poly :=
  match p with
  | [] => if x.m = 0 then [] else [(k, x)]
  | (j, y) :: t =>
    if k < j then (if x.m = 0 then p else (k, x) :: p)
    else if k = j then (if (y.add x).m = 0 then t else (j, y.add x) :: t)
    else (j, y) :: Poly.insert t k x

def Poly.add (p q : Poly) : Poly := q.foldl (fun a t => a.insert t.1 t.2) p
def Poly.sub (p q : Poly) : Poly := q.foldl (fun a t => a.insert t.1 t.2.neg) p
def Poly.mul (p q : Poly) : Poly := p.foldl (fun a s => q.foldl (fun a t => Poly.insert a (s.1 + t.1) (s.2.mul t.2)) a) []
def calcPoly : Calc Poly := { add := Poly.add, sub := Poly.sub, mul := Poly.mul, zero := [] }

/-- Inserts a row into a list sorted by ascending index, counting the rows it passes. -/
def sortInsert (x : Nat × List Dy) : List (Nat × List Dy) → List (Nat × List Dy)
  | [] => [x]
  | y :: t => if x.1 < y.1 then x :: y :: t else y :: sortInsert x t

/-- Whether a permutation of indices is odd. -/
def oddOrder (xs : List Nat) : Bool :=
  (xs.mapIdx (fun i x => ((xs.drop (i + 1)).filter (fun y => decide (y < x))).length)).sum % 2 = 1

/-- The row of a point of sorted rank `s` in dimension `n`, each coordinate perturbed, the lifted column and the 1 appended. -/
def perturbedRow (lift : Bool) (n s : Nat) (p : List Dy) : List Poly :=
  let xs := p.mapIdx (fun q x => Poly.insert (Poly.insert [] 0 x) (3 ^ (s * n + q)) Dy.one)
  liftRow calcPoly lift xs ++ [[(0, Dy.one)]]

/-- The sign that simulation of simplicity gives a zero determinant: points in row order with their indices. -/
def sosSign (lift : Bool) (pts : List (Nat × List Dy)) : Int :=
  let sorted := pts.foldl (fun t x => sortInsert x t) []
  let n := (pts.getD 0 (0, [])).2.length
  let rows := sorted.mapIdx (fun s x => perturbedRow lift n s x.2)
  let sg : Int := match detRows calcPoly rows.length rows with | [] => 0 | t :: _ => signOf t.2.m
  if oddOrder (pts.map (fun x => x.1)) then -sg else sg

/-! ### Stages (06 R130) -/

/-- The constants c0 and c1 of a predicate, as dyadic numbers. -/
def stageConst (lift : Bool) (dim : Nat) : Dy × Dy :=
  let eps (k : Int) : Dy := ⟨1, -53 * k⟩
  let mk (a b : Int) (k : Int) : Dy := ((⟨a, 0⟩ : Dy).add ((⟨b, 0⟩ : Dy).mul (eps 1))).mul (eps k)
  match lift, dim with
  | false, 2 => (mk 3 16 1, mk 9 64 2)
  | false, _ => (mk 7 56 1, mk 26 288 2)
  | true, 2 => (mk 10 96 1, mk 44 576 2)
  | true, _ => (mk 16 224 1, mk 71 1408 2)

/-- Stage 0 of one determinant: its sign where it decides.
DEDUCED: log 22. -/
def stage0 (lift sos : Bool) (pts : List (List Dy)) : Option Int :=
  let dim := (pts.getD 0 []).length
  let t := evalT0 lift pts
  let p := evalP0 lift pts
  if t.bad then none
  else if ((stageConst lift dim).1.mul p).lt t.v.abs then some (signOf t.v.m)
  else if decide (p.m = 0) && !sos then some 0
  else none

/-- Stage 1. -/
def stage1 (lift : Bool) (pts : List (List Dy)) : Option Int :=
  let dim := (pts.getD 0 []).length
  let t := evalT1 lift pts
  if ((stageConst lift dim).2.mul (evalP0 lift pts)).lt t.abs then some (signOf t.m) else none

/-- Stage 2: the exact sign, a zero resolved with `.sos`. -/
def stage2 (lift sos : Bool) (pts : List (Nat × List Dy)) : Int :=
  let d := signOf (evalExact lift (pts.map (fun x => x.2))).m
  if d = 0 ∧ sos = true then sosSign lift pts else d

/-- One determinant: its sign and the stage that decides it. -/
def predicate (lift sos : Bool) (pts : List (Nat × List Dy)) : Int × Nat :=
  match stage0 lift sos (pts.map (fun x => x.2)) with
  | some x => (x, 0)
  | none =>
    match stage1 lift (pts.map (fun x => x.2)) with
    | some x => (x, 1)
    | none => (stage2 lift sos pts, 2)

/-- Whether `s` lies in the box of `p` and `q` (06 R124). -/
def onSeg (p q s : List Dy) : Bool :=
  (List.range 2).all (fun i =>
    let a := p.getD i Dy.zero
    let b := q.getD i Dy.zero
    let x := s.getD i Dy.zero
    let lo := if b.lt a then b else a
    let hi := if b.lt a then a else b
    !x.lt lo && !hi.lt x)

/-- SEGX: the crossing class and the highest stage of its four orientations. -/
def segx (sos : Bool) (pts : List (Nat × List Dy)) : Int × Nat :=
  let pt (i : Nat) := pts.getD i (0, [])
  let a := pt 0
  let b := pt 1
  let c := pt 2
  let d := pt 3
  let o1 := predicate false sos [a, b, c]
  let o2 := predicate false sos [a, b, d]
  let o3 := predicate false sos [c, d, a]
  let o4 := predicate false sos [c, d, b]
  let stage := max (max o1.2 o2.2) (max o3.2 o4.2)
  let cls : Int :=
    if o1.1 * o2.1 < 0 ∧ o3.1 * o4.1 < 0 then 1
    else if (decide (o1.1 = 0) && onSeg a.2 b.2 c.2) || (decide (o2.1 = 0) && onSeg a.2 b.2 d.2) ||
        (decide (o3.1 = 0) && onSeg c.2 d.2 a.2) || (decide (o4.1 = 0) && onSeg c.2 d.2 b.2) then 2
    else 0
  (cls, stage)

/-! ### Instructions -/

/-- The points and dimension of a geometric opcode, and whether it has the lifted column. -/
def geoShape (opcode : Nat) : Nat × Nat × Bool :=
  match opcode with
  | 0x50 => (3, 2, false)
  | 0x51 => (4, 3, false)
  | 0x52 => (4, 2, true)
  | 0x53 => (5, 3, true)
  | _ => (4, 2, false)

/-- Lane `l`'s coordinates of an operand block. -/
def blockCoord (f32 : Bool) (block : List (Lanes Word)) (l i : Nat) : FVal :=
  let w (j : Nat) : Word := lane (block.getD j (Lanes.fill 0)) l
  if f32 then fp32.decode (w i).toNat else fp64.decode (pairNat (w (2 * i)) (w (2 * i + 1)))

/-- Whether every coordinate of a lane is finite. -/
def laneFinite (opcode : Nat) (f32 : Bool) (block : List (Lanes Word)) (l : Nat) : Bool :=
  (List.range ((geoShape opcode).1 * (geoShape opcode).2.1)).all (fun i =>
    match blockCoord f32 block l i with | .num _ _ _ => true | _ => false)

/-- The points of a lane, with their indices. -/
def lanePoints (opcode : Nat) (f32 : Bool) (block : List (Lanes Word)) (index : Lanes Word) (l : Nat) : List (Nat × List Dy) :=
  let dim := (geoShape opcode).2.1
  (List.range (geoShape opcode).1).map (fun k =>
    (((lane index l).toNat + k) % 2 ^ 32, (List.range dim).map (fun q => (blockCoord f32 block l (dim * k + q)).dy)))

/-- The result of a lane and the stage that decides it. -/
def laneDecision (opcode : Nat) (sos f32 : Bool) (block : List (Lanes Word)) (index : Lanes Word) (l : Nat) : Int × Nat :=
  let pts := lanePoints opcode f32 block index l
  if opcode = 0x54 then segx sos pts else predicate (geoShape opcode).2.2 sos pts

/-- A group with one lane of a geometric instruction decided: the result written and GEODONE set. -/
def Group.geoWrite (g : Group) (dest l : Nat) (x : Int) : Group :=
  { g.setLine dest (Lanes.ofFn (fun j => if j.val = l then i32 x else (g.line dest)[j])) with geodone := g.geodone ||| laneBit l }

/-- Stage codes with that of one lane set (06 R134). -/
def withCode (codes : BitVec 64) (l code : Nat) : BitVec 64 := BitVec.ofNat 64 (setBits codes.toNat (2 * l) 2 code)

/-- What stage 0 leaves: the group, the lanes that pass to the EPU, and the stage codes. -/
structure Stage0 where
  group : Group
  open_ : Mask
  codes : BitVec 64
  deriving DecidableEq, Repr

/-- Stage 0 of lanes `run`: decided lanes are written, the others pass to the EPU and are counted. -/
def Group.geoStage0 (g : Group) (opcode dest : Nat) (sos f32 : Bool) (block : List (Lanes Word)) (index : Lanes Word)
    (codes : BitVec 64) (run : List Nat) : Stage0 :=
  run.foldl (fun r l =>
    if laneFinite opcode f32 block l then
      let d := laneDecision opcode sos f32 block index l
      if d.2 = 0 then { r with group := r.group.geoWrite dest l d.1, codes := withCode r.codes l 0 }
      else { r with group := { r.group with geocnt := r.group.geocnt + 1 }, open_ := r.open_ ||| laneBit l }
    else { r with group := r.group.geoWrite dest l (if opcode = 0x54 then 3 else 2) }) ⟨g, 0, codes⟩

/-- The traps of a geometric instruction beyond its word's (06 R128, R129, R139). -/
def Ctx.geoTraps (c : Ctx) (opcode : Nat) (a im : BitVec 6) (sos nf f32 : Bool) (n : Nat) : List Trap :=
  c.accept a n (fun t => decide (t = if f32 then tFP32 else tFP64)) ++
  (if sos then c.accept im 1 intTag else []) ++
  (let bad := (lanesOf (c.f.mask &&& ~~~c.g.geodone)).filter (fun l => !laneFinite opcode f32 ((List.range n).map (fun i => c.val a i)) l)
   if nf || bad.isEmpty then [] else [{ kind := 0x0A, lanes := bad.foldl (fun m l => m ||| laneBit l) 0 }])

/-- A geometric instruction: stage 0 at issue, the other lanes to the EPU; lanes in GEODONE count as decided and keep their stage codes, and
every other lane has code 3 until it is decided (06 R130, R134, R141). D takes its tag as the instruction issues, and GEODONE bits of lanes
outside the issuing fragment are dropped then.
DESIGN CHOICE: log 141. -/
def geoInstr (i : Instr) (s : State) (opcode : Nat) (d a im : BitVec 6) (x y f : BitVec 1) : Host.Outcome State Fault Refusal :=
  let sos := decide (x = 1)
  let nf := decide (y = 1)
  let f32 := decide (f = 1)
  let sh := geoShape opcode
  let n := sh.1 * sh.2.1 * (if f32 then 1 else 2)
  simple i s (fun c => c.geoTraps opcode a im sos nf f32 n)
    (fun c =>
      let block := (List.range n).map (fun i => c.val a i)
      let index := if sos then c.val im else Lanes.fill 0
      let dest := c.g.lbase + d.toNat
      let done := c.g.geodone &&& c.f.mask
      let keep := (lanesOf done).foldl (fun t l => setBits t (2 * l) 2 (bitsOf c.g.geostg.toNat (2 * l) 2)) (2 ^ 64 - 1)
      let g0 := { c.g.setTag dest tI32 with geodone := done }
      let r := g0.geoStage0 opcode dest sos f32 block index (BitVec.ofNat 64 keep) (lanesOf (c.f.mask &&& ~~~done))
      let op : GeoOp :=
        { opcode := opcode, sos := sos, f32 := f32, dest := dest, base := c.g.lbase + a.toNat, count := n
          idxLine := if sos && decide (im.toNat < 48) then some (c.g.lbase + im.toNat) else none
          block := block, index := index, codes := r.codes, slot := c.slot, mask := c.f.mask, pc := c.f.pc, stamp := c.s.nextId
          open_ := r.open_ }
      let s1 := c.done { c.s with nextId := c.s.nextId + 1 } ({ r.group with busy := r.group.busy ++ [Reg.v dest] }.advance c.slot) 0
      s1.mapGroup c.key (fun g => { g with geoOp := some op }))

/-- ORIENT2 (06 R123). -/
def execOrient2 (d a im : BitVec 6) (x y f : BitVec 1) (s : State) : Host.Outcome State Fault Refusal :=
  geoInstr (.orient2 d a im x y f) s 0x50 d a im x y f

/-- ORIENT3. -/
def execOrient3 (d a im : BitVec 6) (x y f : BitVec 1) (s : State) : Host.Outcome State Fault Refusal :=
  geoInstr (.orient3 d a im x y f) s 0x51 d a im x y f

/-- INCIRC. -/
def execIncirc (d a im : BitVec 6) (x y f : BitVec 1) (s : State) : Host.Outcome State Fault Refusal :=
  geoInstr (.incirc d a im x y f) s 0x52 d a im x y f

/-- INSPH. -/
def execInsph (d a im : BitVec 6) (x y f : BitVec 1) (s : State) : Host.Outcome State Fault Refusal :=
  geoInstr (.insph d a im x y f) s 0x53 d a im x y f

/-- SEGX (06 R124). -/
def execSegx (d a im : BitVec 6) (x y f : BitVec 1) (s : State) : Host.Outcome State Fault Refusal :=
  geoInstr (.segx d a im x y f) s 0x54 d a im x y f

/-! ### The exact predicate unit (06 R132 to R136, R140) -/

/-- The group after a geometric instruction has completed: GEOSTG takes the stage codes, GEODONE returns to 0, and the destination is free.
A destination overwritten in every lane is present and loses its poison (04 R75, 10 R229). -/
def Group.geoComplete (g : Group) (o : GeoOp) : Group :=
  let all := decide (o.mask = BitVec.allOnes 32)
  { g with
    geoOp := none, geodone := 0, geostg := o.codes, busy := g.busy.filter (fun r => decide (r ≠ .v o.dest))
    hazards := g.hazards.filter (fun h => decide (h.reg ≠ .v o.dest))
    absent := if all then g.absent &&& ~~~(BitVec.ofNat 256 (2 ^ (o.dest % 256))) else g.absent
    frec := if all then g.frec.cleanV (o.dest - g.lbase) else g.frec
    imgPoison := if all then (g.cleanImage (lineOffset o.dest) 128).imgPoison else g.imgPoison }

/-- The lanes at a core's EPU ahead of a stamp and lane. -/
def State.epuAhead (s : State) (core stamp l : Nat) : Nat :=
  (s.groups.map (fun x =>
    match x.2.geoOp with
    | some o =>
      if x.2.core = core then
        ((lanesOf o.open_).filter (fun j => decide (o.stamp < stamp) || (decide (o.stamp = stamp) && decide (j < l)))).length
      else 0
    | none => 0)).sum

/-- The EPU of a core is being reset; the mark stands with the core's first partition. -/
def State.epuResetting (s : State) (core : Nat) : Bool := (s.part (4 * core)).epuReset

/-- The operand lines of a geometric instruction, its index among them, that read as poisoned. -/
def Group.geoPoison (g : Group) (o : GeoOp) : Option Nat :=
  ((List.range o.count).map (fun i => o.base + i) ++ o.idxLine.toList).find? (fun n =>
    (decide (g.lbase ≤ n) && decide (n < g.lbase + 48) && g.frec.ppoisv.getLsbD (n - g.lbase)) || g.imagePoisoned (lineOffset n) 128)

/-- Whether a geometric instruction may stop part-way: no later instruction of its fragment has issued (06 R140). A group that has stopped at
the instruction after it, or was stopped by the supervisor, does not stop again: the geometric instruction continues in flight.
DEDUCED: log 41. -/
def Group.geoStoppable (g : Group) (o : GeoOp) : Bool := decide (g.stop = .running) && g.geoAt o

/-- The group with its geometric instruction stopped part-way: the program counter stands at it, decided lanes stay in GEODONE and have
their stage codes, undecided lanes have code 3 (06 R140). -/
def Group.geoStop (g : Group) (o : GeoOp) : Group :=
  { (g.setLive o.slot { g.live o.slot with pc := o.pc }) with
    geoOp := none, geostg := o.codes, busy := g.busy.filter (fun r => decide (r ≠ .v o.dest)) }

/-- One lane decided by the EPU (stages 1 and 2), or an operand line found poisoned. -/
def State.epuDecide (s : State) (key : Nat) (g : Group) (o : GeoOp) (l : Nat) : State :=
  match g.geoPoison o with
  | some n =>
    if g.geoStoppable o then
      groupStop (s.setGroup key (g.geoStop o)) key o.slot o.pc { kind := 0x0F, cause := 1, entry := BitVec.ofNat 8 (n - g.lbase) }
    else
      let g1 := (lanesOf o.open_).foldl (fun g j => g.geoWrite o.dest j ((Config.freeWord s.fresh j).toInt)) g
      let codes := (lanesOf o.open_).foldl (fun x j => withCode x j 2) o.codes
      let g2 := { g1.geoComplete { o with codes := codes } with
        frec := { g1.frec with ppoisv := BitVec.ofNat 64 (setBits g1.frec.ppoisv.toNat (o.dest - g.lbase) 1 1) } }
      { s.setGroup key g2 with fresh := s.fresh + 1 }
  | none =>
    let d := laneDecision o.opcode o.sos o.f32 o.block o.index l
    let g1 := g.geoWrite o.dest l d.1
    s.setGroup key { g1 with
      geocnt := if d.2 = 2 then g1.geocnt + 1 else g1.geocnt
      geoOp := some { o with codes := withCode o.codes l d.2, open_ := o.open_ &&& ~~~(laneBit l), rerun := o.rerun &&& ~~~(laneBit l) } }

/-- EPU_LANE_DECIDED: a lane of a group that holds one of its core's eight evaluation slots. -/
def execEpuLaneDecided (s : State) : Host.Outcome State Fault Refusal :=
  let s1 := { s with input := .none }
  match s.input with
  | .two key l =>
    match Assoc.find key s.groups with
    | some g =>
      match g.geoOp with
      | some o =>
        if o.open_.getLsbD l && !s.epuResetting g.core && decide (s.epuAhead g.core o.stamp l < 8) then .next (s1.epuDecide key g o l)
        else .next s1
      | none => .next s1
    | none => .next s1
  | _ => .next s1

/-- GEOMETRIC_COMPLETE. -/
def execGeometricComplete (s : State) : Host.Outcome State Fault Refusal :=
  let s1 := { s with input := .none }
  match s.input with
  | .one key =>
    match Assoc.find key s.groups with
    | some g =>
      match g.geoOp with
      | some o => if o.open_ = 0 then .next (s1.setGroup key (g.geoComplete o)) else .next s1
      | none => .next s1
    | none => .next s1
  | _ => .next s1

/-- One group's geometric instruction when its core's EPU is reset: it is stopped and reissues at once, or its undecided lanes are
marked to run again. -/
def Group.geoReset (g : Group) : Group :=
  match g.geoOp with
  | some o =>
    if o.open_ = 0 then g
    else if g.geoStoppable o then g.geoStop o
    else { g with geoOp := some { o with rerun := o.open_ } }
  | none => g

/-- EPU_RESET of a core. -/
def execEpuReset (s : State) : Host.Outcome State Fault Refusal :=
  let s1 := { s with input := .none }
  match s.input with
  | .one core =>
    let s2 : State := { s1 with groups := s1.groups.map (fun x : Nat × Group => if x.2.core = core then (x.1, x.2.geoReset) else x) }
    .next (s2.setPart (4 * core) { s2.part (4 * core) with epuReset := true })
  | _ => .next s1

/-- EPU_RESET_END: the marked lanes run again from stage 0, and their passes are counted again. -/
def execEpuResetEnd (s : State) : Host.Outcome State Fault Refusal :=
  let s1 := { s with input := .none }
  match s.input with
  | .one core =>
    if s.epuResetting core then
      let s2 : State := { s1 with groups := s1.groups.map (fun x : Nat × Group =>
        match x.2.geoOp with
        | some o =>
          if x.2.core = core then
            (x.1, { x.2 with geocnt := x.2.geocnt + w32 (popcount o.rerun), geoOp := some { o with rerun := 0 } })
          else x
        | none => x) }
      .next (s2.setPart (4 * core) { s2.part (4 * core) with epuReset := false })
    else .next s1
  | _ => .next s1

end Sys2Proof.Machine
end

