-- ==== Sys2Proof/Machine/Atomics.lean ====
section
/-! DEFINITION. Atomics: the read-modify-write operations (08 R182, R183) and ATOM, CAS, ATOMU, CASU (15 R341 to R345, R358, R359). -/

namespace Sys2Proof.Machine

/-! ### Operations -/

/-- The float format of an atomic of `n` bytes. -/
def atomFmt (n : Nat) : Fmt := if n = 8 then fp64 else fp32

/-- The new value of an atomic operation on an `n`-byte word. -/
def atomNew (n aop : Nat) (form : AtomForm) (at_ : Site) (old b : Nat) : Nat :=
  let bits := 8 * n
  let f := atomFmt n
  match aop with
  | 0 =>
    (match form with
     | .float => (f.add 0 at_ (f.decode old) (f.decode b)).code
     | _ => (old + b) % 2 ^ bits)
  | 1 =>
    (match form with
     | .float => (f.minMax false (f.decode old) (f.decode b)).code
     | .unsigned => min old b
     | .signed => if signedOf bits old ≤ signedOf bits b then old else b)
  | 2 =>
    (match form with
     | .float => (f.minMax true (f.decode old) (f.decode b)).code
     | .unsigned => max old b
     | .signed => if signedOf bits b ≤ signedOf bits old then old else b)
  | 3 => Nat.land old b
  | 4 => Nat.lor old b
  | 5 => Nat.xor old b
  | 6 => b
  | _ => if b ≤ old then 0 else old + 1

/-- What a read-modify-write stores in place of `old`; none where it stores nothing. -/
def Rmw.new (op : Rmw) (n : Nat) (pcword : BitVec 22) (old : Nat) : Option Nat :=
  match op with
  | .atom aop form b l =>
    some (atomNew n aop.toNat form { pcword := pcword.toNat % 256 * 2 ^ 14 + pcword.toNat / 256, lane := l } old b.toNat)
  | .cas expected x => if old = expected.toNat % 2 ^ (8 * n) then some (x.toNat % 2 ^ (8 * n)) else none

/-! ### Lane atomics -/

/-- One read-modify-write access per lane. -/
def rmwAccesses (n : Nat) (op : Nat → Rmw) (xs : List Checked) : List Access :=
  xs.filterMap (fun x =>
    match x.target with
    | some (ch, a) => some { chip := ch, kind := .rmw a n (16 * x.lane) (op x.lane) }
    | none => none)

/-- A lane atomic of `n` bytes on the lanes of the fragment.
DEDUCED: log 46. -/
def laneAtomic (i : Instr) (s : State) (d a : BitVec 6) (n : Nat) (sc : BitVec 3) (aop : Nat) (tags : Ctx → List Trap)
    (op : Ctx → Nat → Rmw) : Host.Outcome State Fault Refusal :=
  let xs (c : Ctx) := c.checkLanes c.f.mask (c.laneAddr a 0) true
  simple i s (fun c => c.accept a 2 anyTag ++ tags c ++ laneTraps c n true true (xs c))
    (fun c =>
      match heldBy (xs c) with
      | some h => c.hold h.2 true
      | none =>
        let lines := (List.range (n / 4)).map (fun r => c.g.lbase + d.toNat + r)
        let accs := rmwAccesses n (op c) (xs c)
        let m := { c.newOp i accs (.lanes n false lines c.f.mask) with acquire := some sc, release := some sc, aop := aop }
        let s1 := (c.useMem true (xs c)).addOp m
        if c.remoteStall accs then c.withdrawn
        else c.done s1 ((c.afterMem (xs c) (c.loadPages true (xs c) c.g) c.s.nextId (lines.map Reg.v) (anyRemote accs)).advance c.slot) 0)

/-- Lane `l`'s value of an `n`-byte operand. -/
def Ctx.atomVal (c : Ctx) (x : BitVec 6) (n l : Nat) : BitVec 64 :=
  BitVec.ofNat 64 (if n = 8 then pairNat (lane (c.val x 0) l) (lane (c.val x 1) l) else (lane (c.val x) l).toNat)

/-- The tag with which vB selects the form; a broadcast operand selects the signed form. -/
def Ctx.atomTag (c : Ctx) (b : BitVec 6) : BitVec 5 := (c.tagOf b).getD tRAW

/-- The traps of vB's tags (15 R343). -/
def Ctx.atomTags (c : Ctx) (b : BitVec 6) (n aop : Nat) : List Trap :=
  let f := if n = 8 then tFP64 else tFP32
  let ok (t : BitVec 5) : Bool := if aop < 3 then decide (t = f ∨ t = tU32 ∨ t = tRAW ∨ t = tI32) else tagAssigned t
  c.accept b (n / 4) ok ++ (if n = 8 then c.accept b 2 (fun t => decide (t = c.atomTag b)) else [])

/-- The form that vB's tag selects. -/
def Ctx.atomForm (c : Ctx) (b : BitVec 6) : AtomForm :=
  let t := c.atomTag b
  if t = tU32 then .unsigned else if t = tFP32 ∨ t = tFP64 then .float else .signed

/-- ATOM.W (15 R342). -/
def execAtomW (d a b : BitVec 6) (c o : BitVec 3) (s : State) : Host.Outcome State Fault Refusal :=
  laneAtomic (.atomW d a b c o) s d a 4 c o.toNat (fun x => x.atomTags b 4 o.toNat)
    (fun x l => .atom o (x.atomForm b) (x.atomVal b 4 l) l)

/-- ATOM.D (15 R342). -/
def execAtomD (d a b : BitVec 6) (c o : BitVec 3) (s : State) : Host.Outcome State Fault Refusal :=
  laneAtomic (.atomD d a b c o) s d a 8 c o.toNat (fun x => x.atomTags b 8 o.toNat)
    (fun x l => .atom o (x.atomForm b) (x.atomVal b 8 l) l)

/-- CAS.W (15 R358). -/
def execCasW (d a b : BitVec 6) (c : BitVec 3) (s : State) : Host.Outcome State Fault Refusal :=
  laneAtomic (.casW d a b c) s d a 4 c 0 (fun x => x.accept d 1 anyTag ++ x.accept b 1 anyTag)
    (fun x l => .cas (x.atomVal d 4 l) (x.atomVal b 4 l))

/-- CAS.D (15 R358). -/
def execCasD (d a b : BitVec 6) (c : BitVec 3) (s : State) : Host.Outcome State Fault Refusal :=
  laneAtomic (.casD d a b c) s d a 8 c 0 (fun x => x.accept d 2 anyTag ++ x.accept b 2 anyTag)
    (fun x l => .cas (x.atomVal d 8 l) (x.atomVal b 8 l))

/-! ### Uniform atomics -/

/-- A uniform atomic on the 32-bit word that kA:kA+1 name. -/
def uniformAtomic (i : Instr) (s : State) (d a : BitVec 5) (sc : BitVec 3) (aop : Nat) (op : Ctx → Rmw) :
    Host.Outcome State Fault Refusal :=
  let xs (c : Ctx) := c.checkUniform (c.kpair a) true
  simple i s (fun c => uniformTraps c 4 true true (xs c))
    (fun c =>
      match heldBy (xs c) with
      | some h => c.hold h.2 true
      | none =>
        let accs := rmwAccesses 4 (fun _ => op c) (xs c)
        let m := { c.newOp i accs (.uniform 4 [d.toNat]) with acquire := some sc, release := some sc, aop := aop }
        let s1 := (c.useMem true (xs c)).addOp m
        if c.remoteStall accs then c.withdrawn
        else c.done s1 ((c.afterMem (xs c) c.g c.s.nextId [.k d.toNat] (anyRemote accs)).advance c.slot) 0)

/-- ATOMU (15 R345). -/
def execAtomu (d a b : BitVec 5) (o sc : BitVec 3) (s : State) : Host.Outcome State Fault Refusal :=
  uniformAtomic (.atomu d a b o sc) s d a sc o.toNat (fun c => .atom o .signed ((c.kf b).zeroExtend 64) 0)

/-- CASU (15 R359). -/
def execCasu (d a b e : BitVec 5) (sc : BitVec 3) (s : State) : Host.Outcome State Fault Refusal :=
  uniformAtomic (.casu d a b e sc) s d a sc 0 (fun c => .cas ((c.kf e).zeroExtend 64) ((c.kf b).zeroExtend 64))

end Sys2Proof.Machine
end

