-- ==== Sys2Proof/Machine/Counters.lean ====
section
/-! DEFINITION. The device's own accesses to a job's memory (07 R505), completion counters (02 R29 to R34), the wake-up of waiting groups
(02 R43), and the completion of launches (02 R31, R32; 13 R303). -/

namespace Sys2Proof.Machine

/-! ### Accesses on no group's behalf -/

/-- Where a virtual address leads the device. -/
inductive Reach where
  | at (flat : Nat) (found : Found)
  | refused (t : Trap)
  | held (pte : Nat)
  deriving DecidableEq, Repr

/-- The device's translation of an address for a job with a key mask; it reaches global memory alone. -/
def State.reach (s : State) (job : Nat) (mask : BitVec 16) (va : Nat) (write : Bool) : Reach :=
  let glob (a : Nat) : Reach :=
    match (walk s (.device mask) job a write).place s a write with
    | .here flat (some f) => .at flat f
    | .held p => .held p
    | .fault t => .refused t
    | _ => .refused (windowFault va write)
  if va ≥ 2 ^ 56 then .refused (windowFault va write)
  else
    match windowOf va with
    | .global => glob va
    | .pod c off => if c = s.chipId then glob off else .refused (windowFault va write)
    | _ => .refused (windowFault va write)

/-- Whether the device reaches an address. -/
def State.reachable (s : State) (job : Nat) (mask : BitVec 16) (va : Nat) (write : Bool) : Bool :=
  match s.reach job mask va write with | .at _ _ => true | _ => false

/-- Whether a translation of the device is held for a migrating page. -/
def State.reachHeld (s : State) (job : Nat) (mask : BitVec 16) (va : Nat) : Bool :=
  match s.reach job mask va true with | .held _ => true | _ => false

/-- The walks of the device for accesses to addresses of a job with one intent: the leaf entries that they reach take A, and D with write
intent (10 R215, R216). -/
def State.noteWalks (s : State) (job : Nat) (mask : BitVec 16) (write : Bool) (vas : List Nat) : State :=
  vas.foldl (fun s va => match s.reach job mask va write with | .at _ f => s.setAD f write | _ => s) s

/-- The configuration-error reports of refused accesses of the device to addresses of a job (07 R150; 10 R211, R216). -/
def State.noteRefusals (s : State) (job : Nat) (mask : BitVec 16) (write : Bool) (vas : List Nat) (die : Nat := 0) : State :=
  vas.foldl (fun s va => match s.reach job mask va write with | .refused t => s.noteConfig t job die | _ => s) s

/-- The `n` bytes that the device reads from an address that lies in one page, unless the read fails. -/
def State.fetch (s : State) (job : Nat) (mask : BitVec 16) (va n : Nat) : Option (List Byte) :=
  match s.reach job mask va false with
  | .at flat _ => some (memBytes s.mem flat n)
  | _ => none

/-- The device's store of `n` bytes to an address that lies in one page, where it reaches it. -/
def State.deviceStore (s : State) (job : Nat) (mask : BitVec 16) (va n x : Nat) : State :=
  match s.reach job mask va true with
  | .at flat f => (s.setAD f true).storeNat flat n x
  | _ => s

/-! ### Waiting groups -/

/-- Whether a group is parked on an object. -/
def State.parked (s : State) (pa : Nat) : Bool :=
  s.groups.any (fun x => match x.2.wait with | .object _ p _ _ _ => decide (p = pa) | _ => false)

/-- WAITERS of an object, `n` bytes at `at_`: 0 without a waiter, otherwise a nonzero value that the device chooses (02 R30).
DEDUCED: log 43. -/
def State.writeWaiters (s : State) (pa at_ n : Nat) : State :=
  if s.parked pa then
    if s.nat at_ n = 0 then s.storeNat at_ n (Config.freeNat s.fresh pa % (2 ^ (8 * n) - 1) + 1) else s
  else if s.nat at_ n = 0 then s else s.storeNat at_ n 0

/-- WAITERS of an object is brought up to date, once no operation in flight holds its line shackled and its home serves (07 R157, 13 R292). -/
def State.refreshWaiters (s : State) (pa at_ n : Nat) : State :=
  if s.shackled at_ || s.homeWaits at_ then (if s.waiters.contains (pa, at_, n) then s else { s with waiters := s.waiters ++ [(pa, at_, n)] })
  else { s.writeWaiters pa at_ n with waiters := s.waiters.filter (fun x => decide (x ≠ (pa, at_, n))) }

/-- The writes of WAITERS whose lines are no longer shackled are made. -/
def State.flushWaiters (s : State) : State := s.waiters.foldl (fun s x => s.refreshWaiters x.1 x.2.1 x.2.2) s

/-- Records that an object has changed since the last wait-for walk (08 R190). -/
def State.touch (s : State) (pa : Nat) : State := if s.touched.contains pa then s else { s with touched := pa :: s.touched }

/-- Waits recorded in a die's wait-for table (08 R189). -/
def State.recordedWaits (s : State) (die : Nat) : Nat :=
  (s.groups.filter (fun x =>
    decide (dieOf x.2.core = die) && (match x.2.wait with | .object _ _ _ u _ => !u | _ => false))).length

/-- Whether a wait that begins now finds its die's wait-for table full (02 R49). -/
def State.tableFull (s : State) (die : Nat) : Bool := decide (4096 ≤ s.recordedWaits die)

/-- A group whose wait ends at a clock with `x` in `kd`; ST counts from now. -/
def Group.endWait (g : Group) (kd st now clock : Nat) (x : Word) : Group :=
  { g.landK kd x with
    wait := .none, waitkind := 0, waitaddr := 0, readyAt := now + 1 + st, readySince := clock }

/-! ### Completion counters (02 R30) -/

/-- REMAIN, STATUS and GEN of a counter. -/
def State.remain (s : State) (pa : Nat) : Nat := s.nat pa 4
def State.cstatus (s : State) (pa : Nat) : Nat := s.nat (pa + 4) 2
def State.gen (s : State) (pa : Nat) : Nat := s.nat (pa + 6) 2

/-- The result word of CCWAIT (15 R362). -/
def ccResult (status gen0 : Nat) (done genchg untracked dlk : Bool) : Word :=
  w32 (status % 8 + 2 ^ 8 * b2n done + 2 ^ 9 * b2n genchg + 2 ^ 11 * b2n untracked + 2 ^ 12 * b2n dlk + 2 ^ 16 * gen0)

/-- A group's wait on a counter ends where it is satisfied: REMAIN is 0 in its generation, an acquire at sys scope (09 R200), or GEN has
changed (02 R34). -/
def Group.wakeCounter (g : Group) (s : State) (pa : Nat) : Group :=
  match g.wait with
  | .object kd p st u (.counter gen) =>
    if p = pa ∧ g.stop = .running then
      if s.gen pa ≠ gen then g.endWait kd st (s.now g) s.clock (ccResult (s.cstatus pa) gen false true u false)
      else if s.remain pa = 0 then (s.acquireObject g g.issuer 4 pa 16 counterEvent).endWait kd st (s.now g) s.clock (ccResult (s.cstatus pa) gen true false u false)
      else g
    else g
  | _ => g

/-- Every wait on a counter that is satisfied ends. -/
def State.wakeCounter (s : State) (pa : Nat) : State :=
  let s1 : State := { s with groups := s.groups.map (fun x : Nat × Group => (x.1, x.2.wakeCounter s pa)) }
  (s1.refreshWaiters pa (pa + 8) 8).touch pa

/-- A counter written at an admission, or for a use that ends without one (02 R30): the next generation, a fresh REMAIN and STATUS. -/
def State.startCounter (s : State) (pa remain status : Nat) : State :=
  let g := (s.gen pa + 1) % 2 ^ 16
  (((s.storeNat pa 4 remain).storeNat (pa + 4) 2 status).storeNat (pa + 6) 2 (if g = 0 then 1 else g)).wakeCounter pa

/-- Status bits of counters. -/
abbrev stFault : Nat := 1
abbrev stCancelled : Nat := 2
abbrev stMemberLost : Nat := 4

/-! ### Weight generations (13 R301 to R303) -/

/-- The system physical address of a slot of the weight handle table. -/
def State.weightSlot (s : State) (n : Nat) : Nat := s.ctlNat .memctl 0x420 8 + 64 * n

/-- A capturing launch counts in a slot's REFS. -/
def State.captureSlot (s : State) (n : Nat) : State := s.storeNat (s.weightSlot n + 8) 4 ((s.nat (s.weightSlot n + 8) 4 + 1) % 2 ^ 32)

/-- A capturing launch completes: REFS falls, and a draining slot that reaches 0 retires (13 R303). -/
def State.releaseSlot (s : State) (n : Nat) : State :=
  let a := s.weightSlot n
  let r := s.nat (a + 8) 4 - 1
  let s1 := s.storeNat (a + 8) 4 r
  if r = 0 ∧ s.nat (a + 4) 1 = 2 then
    (s1.storeNat (a + 4) 1 3).ctlSet .memctl 0x430 4 (setBits (s1.ctlNat .memctl 0x430 4) 3 1 1)
  else s1

/-! ### Launches -/

/-- An identifier that no live launch and no open service request holds.
DEDUCED: log 50. -/
def State.freeLaunchId (s : State) : Nat :=
  let used := s.launches.map (fun x => x.1) ++ s.services.filterMap (fun x =>
    match x.2.waiter with | .admission _ i => some i | .child _ i => some i | _ => none)
  ((List.range (used.length + 1)).map (fun i => i + 1)).find? (fun i => !used.contains i) |>.getD 1

/-- A launch-record fault (KIND 0x12), on the ring of a die (10 R225). -/
def State.launchFault (s : State) (die job launch : Nat) : State :=
  s.report die { jobid := job, launchid := launch, faultword := 0x12 }

/-- The die whose ring takes reports about a launch: that of the group that created it, or CD0 (10 R225). -/
def State.launchDie (s : State) (parent : Option (Nat × Nat)) : Nat :=
  match parent with
  | some (l, u) => match Assoc.find (unitKey l u) s.units with | some x => dieOf x.core | none => 0
  | none => 0

/-- A launch leaves the table: children that name it as parent no longer do, and its weight generation is released.
DESIGN CHOICE: log 112. -/
def State.dropLaunch (s : State) (id : Nat) : State :=
  let s1 := match Assoc.find id s.launches with
    | some l => (match l.capture with | some n => s.releaseSlot n | none => s)
    | none => s
  { s1 with
    launches := (Assoc.del id s1.launches).map (fun x =>
      match x.2.parent with
      | some (p, _) => if p = id then (x.1, { x.2 with parent := none }) else x
      | none => x)
    units := s1.units.filter (fun u => decide (u.2.launch ≠ id)) }

/-! ### The device's accesses to counters (02 R30 to R32, R36; 07 R505; 10 R231) -/

/-- The page pieces of a span of virtual addresses: first and last address of each. -/
def spanPieces (va len : Nat) : List (Nat × Nat) :=
  (List.range ((va + len - 1) / 65536 + 1 - va / 65536)).map (fun i =>
    let p := (va / 65536 + i) * 65536
    (max va p, min (va + len - 1) (p + 65535)))

/-- The bytes that an access of the device needs to reach. -/
def DeviceAct.span (a : DeviceAct) : Nat := match a.op with | .unused _ n => n | _ => 16

/-- Where an access of the device stands: done now at a flat address, waiting for a page or a shackle, or refused by translation. -/
def State.deviceReach (s : State) (a : DeviceAct) : Reach :=
  let others := ((spanPieces a.va a.span).drop 1).map (fun p => s.reach a.job a.mask p.1 true)
  match s.reach a.job a.mask a.va true, others.find? (fun r => match r with | .at _ _ => false | _ => true) with
  | .at flat f, none => if s.shackled flat then .held f.pte else .at flat f
  | .at _ _, some r => r
  | r, _ => r

/-- Whether an access of the device, numbered `id`, comes after one that waits for the same counter. -/
def State.deviceBehind (s : State) (id : Nat) (a : DeviceAct) : Bool :=
  s.devq.any (fun x => decide (x.1 < id) && decide (x.2.job = a.job) && decide (x.2.va = a.va))

/-- Whether an access of the device to a counter of a job waits. -/
def State.deviceOpen (s : State) (job va : Nat) : Bool := s.devq.any (fun x => decide (x.2.job = job) && decide (x.2.va = va))

/-- One member of a level completes, with status bits, at its counter's flat address: the state, and STATUS when REMAIN reached 0
(02 R31, R32).
DEDUCED: log 48. -/
def State.countDown (s : State) (level job flat bits : Nat) : State × Option Nat :=
  let st := Nat.lor (s.cstatus flat) bits
  let s1 := ((s.storeNat flat 4 (s.remain flat - 1)).storeNat (flat + 4) 2 st).touch flat
  if s.remain flat = 1 then
    -- the decrement to 0 is a release of the device at sys scope, which any acquire load of the counter observes (02 R33, 09 R200)
    (({ s1 with finished := (level, job, flat, s.gen flat) :: s1.finished }.tellAs none flat 4 0 4 false {}).wakeCounter flat, some st)
  else (s1, none)

/-- The access that a completed level makes to the counter of the level above, with its status (02 R31, R32). -/
def State.levelAbove (s : State) (a : DeviceAct) (level launch : Nat) (above : Counters) (bits : Nat) : Option DeviceAct :=
  match level with
  | 1 =>
    (match Assoc.find launch s.launches with
     | some l => some { a with mask := l.gmask, va := above.graph, op := .down 2 bits launch above }
     | none => none)
  | 2 => some { a with va := above.phase, op := .down 3 bits launch above }
  | 3 => some { a with va := above.jobc, op := .down 4 bits launch above }
  | _ => none

/-- An access of the device takes effect at a flat address: the state, and the access that follows it. -/
def State.counterEffect (s : State) (a : DeviceAct) (flat : Nat) (f : Found) : State × Option DeviceAct :=
  let s0 := s.setAD f true
  match a.op with
  | .down level bits launch above =>
    (match s0.countDown level a.job flat bits with
     | (s1, some st) => (if level = 1 then s1.dropLaunch launch else s1, s.levelAbove a level launch above st)
     | (s1, none) => (s1, none))
  | .status bits => ((s0.storeNat (flat + 4) 2 (Nat.lor (s.cstatus flat) bits)).touch flat, none)
  | .unused bits _ =>
    let s1 := s0.startCounter flat 0 bits
    ({ s1 with finished := (1, a.job, flat, s1.gen flat) :: s1.finished }, none)
  | .unplaced =>
    ({ (s0.storeNat flat 4 0).storeNat (flat + 4) 2 (Nat.lor (s.cstatus flat) stCancelled) with
        finished := (0, a.job, flat, s.gen flat) :: s0.finished }.wakeCounter flat, none)

/-- An access of the device waits, behind those that wait already. -/
def State.queueDevice (s : State) (a : DeviceAct) : State :=
  { s with devq := Assoc.put s.nextId a s.devq, nextId := s.nextId + 1 }

/-- An access of the device and those that follow it, by fuel: each takes effect at once, waits while its page migrates, its slice is
taken over or its line is shackled, or is dropped where translation refuses it, with a configuration-error report where that says one.
DESIGN CHOICE: log 111. -/
def State.device : Nat → State → DeviceAct → State
  | 0, s, a => s.queueDevice a
  | fuel + 1, s, a =>
    if s.deviceBehind s.nextId a then s.queueDevice a
    else
      match s.deviceReach a with
      | .at flat f =>
        (match s.counterEffect a flat f with
         | (s1, some b) => State.device fuel s1 b
         | (s1, none) => s1)
      | .refused t => s.noteConfig t a.job
      | .held _ => s.queueDevice a

/-- Whether a waiting access of the device can now be made or is refused. -/
def State.deviceReady (s : State) (id : Nat) (a : DeviceAct) : Bool :=
  !s.deviceBehind id a && (match s.deviceReach a with | .held _ => false | _ => true)

/-- A waiting access of the device is tried again. -/
def State.retryDevice (s : State) (id : Nat) (a : DeviceAct) : State :=
  if s.deviceBehind id a then s
  else
    let s1 := { s with devq := Assoc.del id s.devq }
    match s.deviceReach a with
    | .at flat f =>
      (match s1.counterEffect a flat f with
       | (s2, some b) => State.device 4 s2 b
       | (s2, none) => s2)
    | .refused t => s1.noteConfig t a.job
    | .held _ => s

/-- Sets status bits in a counter of a job (02 R32). -/
def State.setStatus (s : State) (job : Nat) (mask : BitVec 16) (va bits : Nat) : State :=
  State.device 5 s { job := job, mask := mask, va := va, op := .status bits }

/-- One more member joins a level: a LAUNCH adds 1 to the graph counter (02 R31); LAUNCH waits where the access waits. A refused access
is dropped.
DESIGN CHOICE: log 111. -/
def State.increment (s : State) (job : Nat) (mask : BitVec 16) (va : Nat) : State :=
  match s.reach job mask va true with
  | .at flat f => ((s.setAD f true).storeNat flat 4 ((s.remain flat + 1) % 2 ^ 32)).touch flat
  | .refused t => s.noteConfig t job
  | .held _ => s

/-- A launch of a graph completes with status bits: the graph, phase and job counters fall in turn (02 R31, R32). -/
def State.graphMember (s : State) (l : Launch) (bits : Nat) : State :=
  State.device 5 s { job := l.job, mask := l.gmask, va := l.ctrs.graph, op := .down 2 bits 0 l.ctrs }

/-- The counter of a launch is written for a use that ends without admission (02 R30). -/
def State.endCounter (s : State) (l : Launch) (bits : Nat) : State :=
  State.device 5 s { job := l.job, mask := l.keymask, va := l.block, op := .unused bits (32 + 16 * l.units) }

/-- A launch that ends without its units, with one status bit: its counter is written as R30 fixes and its graph counts it complete. -/
def State.discardLaunch (s : State) (id : Nat) (bits : Nat) : State :=
  match Assoc.find id s.launches with
  | none => s
  | some l => ((s.endCounter l bits).graphMember l bits).dropLaunch id

/-- A unit of a launch has retired, with its counter's status bits: the launch counter falls, and at 0 the launch completes
(02 R31, R32, R41). -/
def State.unitOfLaunchDone (s : State) (id : Nat) (bits : Nat) : State :=
  match Assoc.find id s.launches with
  | none => s
  | some l =>
    State.device 5 { s with launches := Assoc.put id { l with retired := l.retired + 1 } s.launches }
      { job := l.job, mask := l.keymask, va := l.block, op := .down 1 bits id l.ctrs }

end Sys2Proof.Machine
end

