-- ==== Sys2Proof/Machine/Objects.lean ====
section
/-! DEFINITION. Barrier objects (08 R164 to R172, 02 R46) and stage rings (08 R173 to R178): their fields, arrivals, completion, the
acquire, publish, take and release steps, and the groups that they wake. -/

namespace Sys2Proof.Machine

/-! ### Barrier objects -/

/-- The fields of a barrier object that arrivals change (08 R164). -/
structure Barrier where
  expect : Nat
  pseq : Nat
  ovf : Bool
  mlost : Bool
  cnt0 : Nat
  cnt1 : Nat
  deriving DecidableEq, Repr

/-- The barrier object at a flat address. -/
def State.barrier (s : State) (pa : Nat) : Barrier :=
  { expect := s.nat pa 2, pseq := s.nat (pa + 2) 1, ovf := (s.byte (pa + 3)).getLsbD 0, mlost := (s.byte (pa + 3)).getLsbD 1
    cnt0 := s.nat (pa + 4) 2, cnt1 := s.nat (pa + 6) 2 }

/-- SIGNAL of a barrier object. -/
def State.signal (s : State) (pa : Nat) : Nat := s.nat (pa + 8) 4

/-- The bytes of the fields of a barrier object, as a number; the reserved bits of FLAGS are `rsv`. -/
def Barrier.word (b : Barrier) (rsv : Nat) : Nat :=
  b.expect % 2 ^ 16 + 2 ^ 16 * (b.pseq % 2 ^ 8 + 2 ^ 8 * b2n b.ovf + 2 ^ 9 * b2n b.mlost + 2 ^ 10 * (rsv % 2 ^ 6)) +
    2 ^ 32 * (b.cnt0 % 2 ^ 16) + 2 ^ 48 * (b.cnt1 % 2 ^ 16)

/-- Stores the fields of a barrier object, which is then in use; the reserved bits of FLAGS stay. -/
def State.setBarrier (s : State) (pa : Nat) (b : Barrier) : State :=
  { s.storeNat pa 8 (b.word (s.nat (pa + 2) 2 / 2 ^ 10)) true with objs := Assoc.put pa false s.objs }

/-- CNT of a phase's parity. -/
def Barrier.cnt (b : Barrier) (n : Nat) : Nat := if n % 2 = 0 then b.cnt0 else b.cnt1

/-- A count stored, clipped at 65,535 with OVF. -/
def Barrier.setCnt (b : Barrier) (n c : Nat) : Barrier :=
  let b1 := if c > 65535 then { b with ovf := true } else b
  if n % 2 = 0 then { b1 with cnt0 := min c 65535 } else { b1 with cnt1 := min c 65535 }

/-- Whether the current phase of an object has its arrivals. -/
def Barrier.full (b : Barrier) : Bool := decide (1 ≤ b.expect) && decide (b.expect ≤ b.cnt b.pseq)

/-- One round of completion (08 R168): EXPECT arrivals leave the current phase's count, and the surplus counts toward the next. -/
def Barrier.round (b : Barrier) : Barrier :=
  let surplus := b.cnt b.pseq - b.expect
  let b1 := { b.setCnt b.pseq 0 with pseq := (b.pseq + 1) % 256 }
  b1.setCnt b1.pseq (b1.cnt b1.pseq + surplus)

/-- Completion of phases (08 R168), by fuel, with the number of rounds: the two counts together fall in each. -/
def Barrier.complete : Nat → Barrier → Barrier × Nat
  | 0, b => (b, 0)
  | fuel + 1, b =>
    if b.full then
      let r := Barrier.complete fuel b.round
      (r.1, r.2 + 1)
    else (b, 0)

/-- One arrival counted toward phase `n`. -/
def Barrier.count (b : Barrier) (n : Nat) : Barrier := b.setCnt n (b.cnt n + 1)

/-- Whether phase `n` has completed (08 R168). -/
def Barrier.done (b : Barrier) (n : Nat) : Bool :=
  let d := (b.pseq + 256 - n) % 256
  decide (1 ≤ d) && decide (d ≤ 128)

/-- The current phase of an object with a lost member completes (02 R46). -/
def Barrier.lose (b : Barrier) : Barrier := { b.setCnt b.pseq 0 with pseq := (b.pseq + 1) % 256, mlost := true }

/-- The local phase slot of an object's address, and its value in BPHASE (08 R166). -/
def phaseSlot (va : Nat) : Nat := bitsOf va 4 4
def Group.slotPhase (g : Group) (slot : Nat) : Nat := bitsOf g.bphase.toNat (2 * slot) 2
def Group.setSlotPhase (g : Group) (slot n : Nat) : Group :=
  { g with bphase := w32 (setBits g.bphase.toNat (2 * slot) 2 n) }

/-- The result word of BAR (08 R171). -/
def barResult (b : Barrier) (phase : Nat) (done untracked dlk err : Bool) : Word :=
  w32 (phase % 256 + 2 ^ 8 * b2n done + 2 ^ 9 * b2n b.mlost + 2 ^ 10 * b2n b.ovf + 2 ^ 11 * b2n untracked + 2 ^ 12 * b2n dlk
    + 2 ^ 13 * b2n err)

/-- Whether an arrival with local phase `l` would run two phases ahead (08 R167). -/
def Barrier.ahead (b : Barrier) (l : Nat) : Bool := decide ((l + 256 - b.pseq) % 4 = 2)

/-- The phase an arrival with local phase `l` counts toward. -/
def Barrier.arrivalPhase (b : Barrier) (l : Nat) : Nat := if (l + 256 - b.pseq) % 4 = 1 then (b.pseq + 1) % 256 else b.pseq

/-- A group's arrival on a barrier that does not block: the object before its phases complete, the phase counted toward, and the group
with its slot moved. With a lost member the current phase completes at once (02 R46). -/
def arriveOn (b : Barrier) (g : Group) (slot : Nat) : Barrier × Nat × Group :=
  if b.mlost then (b.lose, b.pseq, g.setSlotPhase slot ((b.pseq + 1) % 4))
  else
    let n := b.arrivalPhase (g.slotPhase slot)
    (b.count n, n, g.setSlotPhase slot ((n + 1) % 4))

/-- The wait of a group for phase `n` of a barrier ends, an acquire at its scope when the phase has completed (08 R171, R172). -/
def State.endPhase (s : State) (g : Group) (pa kd st n scope : Nat) (untracked done : Bool) : Group :=
  (if done then s.acquireObject g g.issuer scope pa 16 (phaseEvent n) else g).endWait kd st (s.now g) s.clock
    (barResult (s.barrier pa) n done untracked false false)

/-- Ends the waits for phases that completed in the rounds of one completion, `k` of them from phase `from_` on (08 R168). -/
def State.wakePassed (s : State) (pa from_ k : Nat) : State :=
  { s with groups := s.groups.map (fun x : Nat × Group =>
      (x.1, match x.2.wait with
        | .object kd p st u (.phase n scope w) =>
          if p = pa ∧ x.2.stop = .running ∧ (n + 256 - from_) % 256 < k then s.endPhase x.2 pa kd st n scope (u || w) true else x.2
        | _ => x.2)) }

/-- Stores a barrier object after an arrival and completes its phases (08 R168). -/
def State.completeBarrier (s : State) (pa : Nat) (b : Barrier) : State :=
  let r := b.complete 131072
  (s.setBarrier pa r.1).wakePassed pa b.pseq r.2

/-- A group's arrival on a barrier by its fragment of lanes `m`, a release at its scope (08 R167, R172): the state, the phase counted toward,
and the group. -/
def State.arrive (s : State) (key : Nat) (g : Group) (m : Mask) (pa slot scope : Nat) : State × Nat × Group :=
  let r := arriveOn (s.barrier pa) g slot
  (((s.tell g pa 16 (phaseEvent r.2.1) scope false (s.viewOf key g m g.po)).completeBarrier pa r.1), r.2.1, s.seeObject r.2.2 m pa 16)

/-- Whether a group parked on a barrier may proceed: its phase has completed or a member is lost; its blocked arrival no longer runs ahead
(08 R167, R171). -/
def Group.barrierReady (g : Group) (pa : Nat) (b : Barrier) : Bool :=
  decide (g.stop = .running) &&
  (match g.wait with
   | .object _ p _ _ (.phase n _ _) => decide (p = pa) && (b.done n || b.mlost)
   | .object _ p _ _ (.arrival slot _ _) => decide (p = pa) && (!b.ahead (g.slotPhase slot) || b.mlost)
   | _ => false)

/-- A group parked on a barrier proceeds. The wait of an ARW is a wait of its own, recorded where the table then has room (08 R189). -/
def State.proceed (s : State) (key : Nat) (g : Group) : State :=
  match g.wait with
  | .object kd pa st u (.phase n scope w) =>
    s.setGroup key (s.endPhase g pa kd st n scope (u || w) ((s.barrier pa).done n))
  | .object kd pa st u (.arrival slot andWait scope) =>
    let r := s.arrive key g g.issuer pa slot scope
    let b := r.1.barrier pa
    if andWait && !(b.done r.2.1 || b.mlost) then
      r.1.setGroup key { r.2.2 with wait := .object kd pa st (u && s.tableFull (dieOf g.core)) (.phase r.2.1 scope u) }
    else r.1.setGroup key (if andWait then r.1.endPhase r.2.2 pa kd st r.2.1 scope u (b.done r.2.1)
      else r.2.2.endWait kd st (s.now g) s.clock (barResult b r.2.1 (b.done r.2.1) u false false))
  | _ => s

/-- Wakes the groups parked on a barrier, one at a time, by fuel. -/
def wakeParked (pa : Nat) : Nat → State → State
  | 0, s => s
  | fuel + 1, s =>
    match s.groups.find? (fun x => x.2.barrierReady pa (s.barrier pa)) with
    | some (k, g) => wakeParked pa fuel (s.proceed k g)
    | none => s

/-- After a change of a barrier object: groups parked on it wake, and WAITERS follows (08 R164, R168). -/
def State.wakeBarrier (s : State) (pa : Nat) : State :=
  ((wakeParked pa (2 * s.groups.length + 1) s).refreshWaiters pa (pa + 12) 4).touch pa

/-- The scratchpad range of a unit, as flat addresses. -/
def LUnit.covers (u : LUnit) (flat : Nat) : Bool :=
  decide (paSpad u.core u.spadBase ≤ flat) && decide (flat < paSpad u.core (u.spadBase + u.spadLen))

/-- Whether an object lies in the scratchpad of a unit whose co-scheduled set has lost a member (02 R46). -/
def State.memberLostAt (s : State) (flat : Nat) : Bool :=
  s.units.any (fun u => u.2.memberLost && s.holdsSpad u.2 && u.2.covers flat)

/-- A barrier object that involves a lost member completes its current phase with member-lost status (02 R46): at the loss where it has been
used before, and otherwise at its first use.
DEDUCED: log 36. -/
def State.noteLost (s : State) (pa : Nat) : State :=
  if s.memberLostAt pa && !(s.barrier pa).mlost then s.setBarrier pa (s.barrier pa).lose else s

/-- An external arrival (08 R169): toward the current phase, with no slot. -/
def State.externalArrival (s : State) (pa : Nat) : State :=
  (s.completeBarrier pa ((s.barrier pa).count (s.barrier pa).pseq)).wakeBarrier pa

/-! ### Stage rings -/

/-- A stage ring descriptor (08 R173). -/
structure StageRing where
  base : Nat
  slotsz : Nat
  nslot : Nat
  free : Nat
  filled : Nat
  phead : Nat
  chead : Nat
  full : Nat
  phase : Nat
  reserved : Nat
  deriving DecidableEq, Repr

/-- The descriptor at a flat address. -/
def State.stageRing (s : State) (pa : Nat) : StageRing :=
  { base := s.nat pa 4, slotsz := s.nat (pa + 4) 2, nslot := s.nat (pa + 6) 1, free := s.nat (pa + 8) 1
    filled := s.nat (pa + 9) 1, phead := s.nat (pa + 10) 1, chead := s.nat (pa + 11) 1, full := s.nat (pa + 16) 8
    phase := s.nat (pa + 24) 8, reserved := s.nat (pa + 7) 1 + s.nat (pa + 12) 4 }

/-- Stores a descriptor's dynamic fields; the ring is then in use while a slot of it is not free. -/
def State.setStageRing (s : State) (pa : Nat) (r : StageRing) : State :=
  let s1 := s.store
    (cellsOf (pa + 8) 4 (r.free % 256 + 2 ^ 8 * (r.filled % 256) + 2 ^ 16 * (r.phead % 256) + 2 ^ 24 * (r.chead % 256)) ++
      cellsOf (pa + 16) 8 r.full ++ cellsOf (pa + 24) 8 r.phase) true
  { s1 with objs := if r.free = r.nslot then Assoc.del pa s1.objs else Assoc.put pa true s1.objs }

/-- Whether a descriptor is valid for a unit's scratchpad size. -/
def StageRing.valid (r : StageRing) (spad : Nat) : Bool :=
  decide (1 ≤ r.nslot) && decide (r.nslot ≤ 64) && decide (r.slotsz ≠ 0) && decide (r.reserved = 0) &&
  decide (r.base + 256 * r.slotsz * r.nslot ≤ spad)

/-- Number of set bits of a 64-bit number. -/
def popcount64 (x : Nat) : Nat := (List.range 64).countP (fun i => decide (bitsOf x i 1 = 1))

/-- The oldest slot in use. -/
def StageRing.oldest (r : StageRing) : Nat := (r.phead + r.free) % r.nslot

/-- Whether slot `i` is acquired and not published (08 R175). -/
def StageRing.acquired (r : StageRing) (i : Nat) : Bool :=
  decide ((i + r.nslot - r.oldest) % r.nslot < r.nslot - r.free) && decide (bitsOf r.full i 1 = 0)

/-- The RACQ step; it waits while no slot is free. -/
def StageRing.acquire (r : StageRing) : Option (Nat × StageRing) :=
  if 0 < r.free then some (r.phead, { r with phead := (r.phead + 1) % r.nslot, free := r.free - 1 }) else none

/-- The RPUB step for slot `i`; refused when the slot is not acquired. -/
def StageRing.publish (r : StageRing) (i : Nat) : Option (Nat × StageRing) :=
  if i < r.nslot ∧ bitsOf r.full i 1 = 0 ∧ r.acquired i = true then
    some (i, { r with full := setBits r.full i 1 1, phase := setBits r.phase i 1 (1 - bitsOf r.phase i 1), filled := r.filled + 1 })
  else none

/-- The RTAKE step; it waits while slot CHEAD is not published. -/
def StageRing.take (r : StageRing) : Option (Nat × StageRing) :=
  if bitsOf r.full r.chead 1 = 1 ∧ 0 < r.filled then
    some (r.chead, { r with chead := (r.chead + 1) % r.nslot, filled := r.filled - 1 })
  else none

/-- The RREL step; refused when the oldest slot is not published and taken. -/
def StageRing.release (r : StageRing) : Option (Nat × StageRing) :=
  if bitsOf r.full r.oldest 1 = 0 ∨ popcount64 r.full = r.filled then none
  else some (r.oldest, { r with full := setBits r.full r.oldest 1 0, free := r.free + 1 })

/-- The result word of a ring instruction for slot `i` (08 R176). -/
def ringResult (r : StageRing) (i : Nat) (untracked : Bool) : Word :=
  w32 ((r.base + 256 * r.slotsz * i) % 2 ^ 21 + 2 ^ 21 * (i % 64) + 2 ^ 27 * bitsOf r.phase i 1 + 2 ^ 31 * b2n untracked)

/-- The result words of a wait ended by a lost member, by a broken cycle, and of a refused operation: they name no slot, and SLOTOFF, SLOT
and PH read 0.
DESIGN CHOICE: log 144. -/
def ringMlost (untracked : Bool) : Word := w32 (2 ^ 28 + 2 ^ 31 * b2n untracked)
def ringDlk (untracked : Bool) : Word := w32 (2 ^ 29 + 2 ^ 31 * b2n untracked)
def ringErr : Word := w32 (2 ^ 30)

/-- Whether a stalled COPYR that reached the ring before `stamp` waits for a slot of it (08 R178). -/
def State.copyrAhead (s : State) (pa stamp : Nat) : Bool :=
  s.copies.any (fun x =>
    match x.2.shape, x.2.stalled with
    | .ring desc _ _, some t =>
      (match Assoc.find x.2.group s.groups with
       | some g => (match s.unitOf g with | some u => decide (paSpad u.core (u.spadBase + desc) = pa) | none => false)
       | none => false) && decide (t < stamp) && x.2.slot.isNone && x.2.failed.isNone
    | _, _ => false)

/-- The step that a ring waiter which reached the ring at `stamp` waits to make. -/
def State.ringStep (s : State) (pa stamp : Nat) (r : StageRing) : Until → Option (Nat × StageRing)
  | .take => r.take
  | .acquire => if s.copyrAhead pa stamp then none else r.acquire
  | _ => none

/-- The group parked on a ring that reached it first, among those that its state lets proceed.
DEDUCED: log 42. -/
def State.firstRingWoken (s : State) (pa : Nat) (r : StageRing) : List (Nat × Group) → Option (Nat × Group × Nat × StageRing)
  | [] => none
  | (k, g) :: t =>
    match g.wait, s.firstRingWoken pa r t with
    | .object _ p _ _ what, later =>
      if p = pa ∧ g.stop = .running then
        match s.ringStep pa g.waitStamp r what, later with
        | some x, some y => if g.waitStamp ≤ y.2.1.waitStamp then some (k, g, x.1, x.2) else some y
        | some x, none => some (k, g, x.1, x.2)
        | none, y => y
      else later
    | _, later => later

/-- A group after its RACQ or RTAKE of slot `i`: an acquire at unit scope of the release that freed it or of its publication (09 R200). -/
def State.takeSlot (s : State) (g : Group) (m : Mask) (pa i : Nat) (what : Until) : Group :=
  s.seeObject (s.acquireObject g m 1 pa 32 (if what = .take then publishEvent i else releaseEvent i)) m pa 32

/-- Wakes the groups parked on a ring, one at a time, by fuel. -/
def wakeRingParked (pa : Nat) : Nat → State → State
  | 0, s => s
  | fuel + 1, s =>
    match s.firstRingWoken pa (s.stageRing pa) s.groups with
    | some (k, g, i, r) =>
      match g.wait with
      | .object kd _ st u what =>
        wakeRingParked pa fuel ((s.setStageRing pa r).setGroup k
          ((s.takeSlot g g.issuer pa i what).endWait kd st (s.now g) s.clock (ringResult r i u)))
      | _ => s
    | none => s

/-- After a change of a ring: groups parked on it take their steps. -/
def State.wakeRing (s : State) (pa : Nat) : State := (wakeRingParked pa (s.groups.length + 1) s).touch pa

/-! ### Waits ended by a lost member or a broken cycle -/

/-- The result with which a wait ends that the device breaks: DLK (08 R191) or MLOST (02 R46, 08 R177). PHASE of a blocked arrival, which has
counted toward no phase, is the object's current one.
DESIGN CHOICE: log 145. -/
def State.brokenResult (s : State) (pa : Nat) (untracked dlk : Bool) : Until → Word
  | .counter gen => ccResult (s.cstatus pa) gen false false untracked dlk
  | .arrival _ _ _ => barResult (s.barrier pa) (s.barrier pa).pseq false untracked dlk false
  | .phase n _ w => barResult (s.barrier pa) n ((s.barrier pa).done n) (untracked || w) dlk false
  | .take => if dlk then ringDlk untracked else ringMlost untracked
  | .acquire => if dlk then ringDlk untracked else ringMlost untracked

/-- One group's wait is broken; it changes no object, slot or count. -/
def State.breakWait (s : State) (key : Nat) (dlk : Bool) : State :=
  match Assoc.find key s.groups with
  | some g =>
    match g.wait with
    | .object kd pa st u what =>
      let s1 := s.setGroup key (g.endWait kd st (s.now g) s.clock (s.brokenResult pa u dlk what))
      match what with
      | .counter _ => s1.refreshWaiters pa (pa + 8) 8
      | .arrival _ _ _ => s1.refreshWaiters pa (pa + 12) 4
      | .phase _ _ _ => s1.refreshWaiters pa (pa + 12) 4
      | _ => s1
    | _ => s
  | none => s

end Sys2Proof.Machine
end

