-- ==== Sys2Proof/Machine/Sync.lean ====
section
/-! DEFINITION. Synchronisation instructions: BAR, the stage rings, WAITC, FENCE, FENCER, CCWAIT, CCTL, MCAS, ALLOC, FREE and DBELL
(08 R164 to R188; 11 R243, R263; 12 R277; 15 R346, R360 to R362, R338, R368; 16 R382 to R384, R389; 17 R417; 18 R444, R445, R470). -/

namespace Sys2Proof.Machine

/-! ### Objects named by a uniform address -/

/-- A poison fault of CAUSE 1 at an address. -/
def poisonAt (va : Nat) (write : Bool) : Trap := { kind := 0x0F, cause := 1, write := write, addr := va }

/-- A place with another chip refused by a window fault (08 R165). -/
def localPlace (va : Nat) (write : Bool) : Place → Place
  | .chip _ _ => .fault (windowFault va write)
  | p => p

/-- The place of an object in any window that serves objects. -/
def Ctx.objectPlace (c : Ctx) (va : Nat) (write : Bool) : Place := localPlace va write (c.s.place c.g none va write)

/-- The place for a group of what lies in global memory alone. -/
def State.globalPlace (s : State) (g : Group) (va : Nat) (write : Bool) : Place :=
  if va ≥ 2 ^ 56 then .fault (windowFault va write)
  else
    match windowOf va with
    | .global => localPlace va write (s.place g none va write)
    | .pod _ _ => localPlace va write (s.place g none va write)
    | _ => .fault (windowFault va write)

/-- The place of an object that lies in global memory alone. -/
def Ctx.globalPlace (c : Ctx) (va : Nat) (write : Bool) : Place := c.s.globalPlace c.g va write

/-- The checks of an object: alignment, its place, and poison in any of its sectors, counted from its first. -/
def Ctx.objectTraps (c : Ctx) (va align sectors : Nat) (write : Bool) (p : Place) : List Trap :=
  (if va % align ≠ 0 then [misaligned va write] else []) ++
  (match p with
   | .fault t => [t]
   | .here flat _ => if (List.range sectors).any (fun i => c.s.poisoned (flat + 64 * i)) then [poisonAt va write] else []
   | _ => [])

/-- Whether an access of the group, of whichever fragment, stands in a ticket table or waits for one (09 R206). -/
def State.groupTickets (s : State) (key : Nat) : Bool :=
  s.heldTickets.any (fun h => match Assoc.find h.op s.ops with | some o => decide (o.group = key) | none => false)
def Ctx.ticketsOpen (c : Ctx) : Bool := decide (c.g.tickets ≠ 0) || c.s.groupTickets c.key

/-- Whether every earlier access that a release at a scope covers has been performed: at pod scope the other chips have answered and
no ticket is open (12 R274). A release at unit or cluster scope does not wait: it carries what has not taken effect yet.
DESIGN CHOICE: log 10. -/
def Ctx.released (c : Ctx) (scope : Nat) : Bool :=
  if wide scope then (if scope = 5 then c.drainedRemote && !c.ticketsOpen else c.drained) else true

/-- Whether an earlier access of the issuing fragment holds its access to the `n` bytes of an object back: one to a byte of it, an
acquire, or one that its group acquired (09 R197 rows 1 and 2, R202). -/
def Ctx.objectHeld (c : Ctx) (pa n : Nat) : Bool :=
  let bytes := (List.range n).map (fun i => pa + i)
  c.s.ops.any (fun o =>
    decide (o.2.group = c.key) && shares o.2.owner c.f.mask &&
    ((o.2.acquiring.isSome && (o.2.open_ || !o.2.sent.isEmpty)) ||
     (decide (o.2.dest = .none) && decide (o.2.po < laneMax c.g.order.fencer c.f.mask) && o.2.open_) ||
     o.2.accs.any (fun y => y.2.chip.isNone && y.2.addrs.any (fun a => bytes.contains a)))) ||
  !c.s.debtsPaid c.g c.f.mask c.g.po (some bytes)

/-- A uniform instruction on one object: `rel` is what it waits for at issue, `effect` what it does to the object at a flat address. -/
def objectInstr (i : Instr) (s : State) (va : Ctx → Nat) (place : Ctx → Place) (align sectors : Nat) (write : Bool)
    (waits : Ctx → Bool) (effect : Ctx → Nat → State) : Host.Outcome State Fault Refusal :=
  perform i s (fun _ => []) waits (fun c => c.objectTraps (va c) align sectors write (place c))
    (fun c =>
      match place c with
      | .held _ => c.hold (va c) write
      | .here flat _ =>
        if (write && (c.s.shackled flat || c.g.readsStill (addrsFrom flat align))) || c.objectHeld flat align then c.withdrawn
        else
          let xs : List Checked := [{ lane := 0, va := va c, place := place c }]
          effect { c with s := c.useMem write xs, g := { c.g with spillTouched := c.g.spillTouched || c.touchesSpill xs } } flat
      | _ => c.withdrawn)

/-- The issuing group parks on the object at `pa` (02 R42); the wait is recorded unless the die's table is full (02 R49). -/
def Ctx.park (c : Ctx) (s : State) (g : Group) (kd pa va st kind : Nat) (what : Until) : State :=
  let u := s.tableFull (dieOf c.g.core)
  let g1 := { g.advance c.slot with
    wait := .object kd pa st u what, waitkind := BitVec.ofNat 8 kind, waitaddr := BitVec.ofNat 64 va, waitSince := c.now
    waitStamp := s.nextId }
  c.done { s with nextId := s.nextId + 1 } g1 0

/-! ### BAR (08 R170 to R172) -/

/-- A BAR instruction on the object that kA:kA+1 name; `scope` is what its release waits for. -/
def barInstr (i : Instr) (s : State) (a : BitVec 5) (scope : Option Nat) (effect : Ctx → Nat → State) :
    Host.Outcome State Fault Refusal :=
  objectInstr i s (fun c => c.kpair a) (fun c => c.objectPlace (c.kpair a) true) 16 1 true
    (fun c => match scope with | some x => !c.released x | none => false)
    (fun c pa => effect { c with s := c.s.noteLost pa } pa)

/-- BAR.INIT: refused while EXPECT is 0 or a waiter is parked. -/
def execBarInit (d a b : BitVec 5) (q : BitVec 2) (st : BitVec 3) (s : State) : Host.Outcome State Fault Refusal :=
  barInstr (.barInit d a b q st) s a none (fun c pa =>
    let e := (c.kf b).toNat % 2 ^ 16
    let old := c.s.barrier pa
    if e = 0 ∨ c.s.parked pa = true then c.finish c.s c.g d.toNat (barResult old old.pseq false false false true) st.toNat
    else
      let new : Barrier := { expect := e, pseq := 0, ovf := false, mlost := false, cnt0 := 0, cnt1 := 0 }
      c.finish ((c.s.setBarrier pa new).touch pa) ((c.s.seeObject c.g c.f.mask pa 16).setSlotPhase (phaseSlot (c.kpair a)) 0) d.toNat
        (barResult new 0 false false false false) st.toNat)

/-- The arrival of BAR.ARV and BAR.ARW: blocked while it would run two phases ahead (08 R167). -/
def Ctx.barArrive (c : Ctx) (pa va kd st scope : Nat) (andWait : Bool) : State :=
  let b := c.s.barrier pa
  let slot := phaseSlot va
  if b.ahead (c.g.slotPhase slot) && !b.mlost then
    (c.park c.s c.g kd pa va st 2 (.arrival slot andWait scope)).refreshWaiters pa (pa + 12) 4
  else
    let r := c.s.arrive c.key c.g c.f.mask pa slot scope
    let done := (r.1.barrier pa).done r.2.1
    let s1 := r.1.wakeBarrier pa
    let b1 := s1.barrier pa
    if andWait && !(done || b1.done r.2.1 || b1.mlost) then
      (c.park s1 r.2.2 kd pa va st 2 (.phase r.2.1 scope false)).refreshWaiters pa (pa + 12) 4
    else
      c.finish s1 (if andWait && done then s1.acquireObject r.2.2 c.f.mask scope pa 16 (phaseEvent r.2.1) else r.2.2) kd
        (barResult b1 r.2.1 done false false false) st

/-- BAR.ARV. -/
def execBarArv (d a : BitVec 5) (c : BitVec 3) (q : BitVec 2) (st : BitVec 3) (s : State) : Host.Outcome State Fault Refusal :=
  barInstr (.barArv d a c q st) s a (some c.toNat) (fun x pa => x.barArrive pa (x.kpair a) d.toNat st.toNat c.toNat false)

/-- BAR.ARW. -/
def execBarArw (d a : BitVec 5) (c : BitVec 3) (q : BitVec 2) (st : BitVec 3) (s : State) : Host.Outcome State Fault Refusal :=
  barInstr (.barArw d a c q st) s a (some c.toNat) (fun x pa => x.barArrive pa (x.kpair a) d.toNat st.toNat c.toNat true)

/-- BAR.WAIT on the phase in kD[7:0]. -/
def execBarWait (d a : BitVec 5) (c : BitVec 3) (q : BitVec 2) (st : BitVec 3) (s : State) : Host.Outcome State Fault Refusal :=
  barInstr (.barWait d a c q st) s a none (fun x pa =>
    let b := x.s.barrier pa
    let n := (x.kf d).toNat % 256
    if b.done n || b.mlost then
      x.finish x.s (if b.done n then x.s.acquireObject x.g x.f.mask c.toNat pa 16 (phaseEvent n) else x.g) d.toNat
        (barResult b n (b.done n) false false false) st.toNat
    else (x.park x.s x.g d.toNat pa (x.kpair a) st.toNat 2 (.phase n c.toNat false)).refreshWaiters pa (pa + 12) 4)

/-- BAR.TEST; with JOIN it sets the group's slot to the object's phase. -/
def execBarTest (d a : BitVec 5) (j : BitVec 1) (c : BitVec 3) (q : BitVec 2) (st : BitVec 3) (s : State) :
    Host.Outcome State Fault Refusal :=
  barInstr (.barTest d a j c q st) s a none (fun x pa =>
    let b := x.s.barrier pa
    if j = 1 then
      x.finish x.s (x.g.setSlotPhase (phaseSlot (x.kpair a)) (b.pseq % 4)) d.toNat (barResult b b.pseq false false false false) st.toNat
    else
      let n := (x.kf d).toNat % 256
      x.finish x.s (if b.done n then x.s.acquireObject x.g x.f.mask c.toNat pa 16 (phaseEvent n) else x.g) d.toNat
        (barResult b n (b.done n) false false false) st.toNat)

/-! ### Stage rings (08 R174 to R177, 18 R444, R445) -/

/-- The window address of a core scratchpad offset. -/
def spadVa (off : Nat) : Nat := 0x00FF000100000000 + off

/-- The place of a ring descriptor at a core scratchpad offset. -/
def Ctx.ringPlace (c : Ctx) (off : Nat) : Place :=
  match c.s.unitOf c.g with
  | some u => if off < u.spadLen then .here (paSpad u.core (u.spadBase + off)) none else .fault (windowFault (spadVa off) true)
  | none => .fault (windowFault (spadVa off) true)

/-- The unit's scratchpad size, and whether the unit has lost a member (08 R177). -/
def Ctx.unitSpad (c : Ctx) : Nat := match c.s.unitOf c.g with | some u => u.spadLen | none => 0
def Ctx.unitLost (c : Ctx) : Bool := match c.s.unitOf c.g with | some u => u.groupLost | none => false

/-- The offset that kA holds. -/
def Ctx.ringOff (c : Ctx) (a : BitVec 5) : Nat := (c.kf a).toNat

/-- A ring instruction: an invalid descriptor completes with ERR. -/
def ringInstr (i : Instr) (s : State) (d a : BitVec 5) (st : BitVec 3) (waits : Ctx → Bool)
    (effect : Ctx → Nat → StageRing → State) : Host.Outcome State Fault Refusal :=
  perform i s (fun _ => []) waits
    (fun c => (if c.ringOff a % 32 ≠ 0 then [misaligned (spadVa (c.ringOff a)) true] else []) ++
      (match c.ringPlace (c.ringOff a) with | .fault t => [t] | _ => []))
    (fun c =>
      match c.ringPlace (c.ringOff a) with
      | .here pa _ =>
        let r := c.s.stageRing pa
        if c.objectHeld pa 32 || c.g.readsStill (addrsFrom pa 32) then c.withdrawn
        else if r.valid c.unitSpad then effect c pa r else c.finish c.s c.g d.toNat ringErr st.toNat
      | _ => c.withdrawn)

/-- A ring step that may wait: with a lost member it completes at once with MLOST (08 R177). -/
def Ctx.ringWait (c : Ctx) (pa : Nat) (r : StageRing) (d a : BitVec 5) (st kind : Nat) (what : Until) : State :=
  match c.s.ringStep pa c.s.nextId r what with
  | some (i, r1) =>
    c.finish ((c.s.setStageRing pa r1).wakeRing pa) (c.s.takeSlot c.g c.f.mask pa i what) d.toNat (ringResult r1 i false) st
  | none =>
    if c.unitLost then c.finish c.s c.g d.toNat (ringMlost false) st
    else c.park c.s c.g d.toNat pa (spadVa (c.ringOff a)) st kind what

/-- A ring step that never waits, a release at unit scope of the event `ev` of its slot: refused steps complete with ERR. -/
def Ctx.ringNow (c : Ctx) (pa : Nat) (d : BitVec 5) (st : Nat) (ev : Nat → Nat) : Option (Nat × StageRing) → State
  | some (i, r1) =>
    let s1 := c.s.tell c.g pa 32 (ev i) 1 false (c.s.viewOf c.key c.g c.f.mask c.g.po)
    c.finish ((s1.setStageRing pa r1).wakeRing pa) (c.s.seeObject c.g c.f.mask pa 32) d.toNat (ringResult r1 i false) st
  | none => c.finish c.s c.g d.toNat ringErr st

/-- RACQ. -/
def execRacq (d a : BitVec 5) (q : BitVec 2) (st : BitVec 3) (s : State) : Host.Outcome State Fault Refusal :=
  ringInstr (.racq d a q st) s d a st (fun _ => false) (fun c pa r => c.ringWait pa r d a st.toNat 4 .acquire)

/-- RPUB of the slot in kB[5:0]; a release at unit scope. -/
def execRpub (d a b : BitVec 5) (q : BitVec 2) (st : BitVec 3) (s : State) : Host.Outcome State Fault Refusal :=
  ringInstr (.rpub d a b q st) s d a st (fun c => !c.released 1)
    (fun c pa r => c.ringNow pa d st.toNat publishEvent (r.publish ((c.kf b).toNat % 64)))

/-- RTAKE. -/
def execRtake (d a : BitVec 5) (q : BitVec 2) (st : BitVec 3) (s : State) : Host.Outcome State Fault Refusal :=
  ringInstr (.rtake d a q st) s d a st (fun _ => false) (fun c pa r => c.ringWait pa r d a st.toNat 3 .take)

/-- RREL; a release at unit scope. -/
def execRrel (d a : BitVec 5) (q : BitVec 2) (st : BitVec 3) (s : State) : Host.Outcome State Fault Refusal :=
  ringInstr (.rrel d a q st) s d a st (fun c => !c.released 1) (fun c pa r => c.ringNow pa d st.toNat releaseEvent r.release)

/-! ### Engine counters and fences -/

/-- The class that a code names (08 R179). -/
def classOf (n : Nat) : EngineClass :=
  match n with
  | 0 => .copy
  | 1 => .matrix
  | 2 => .remote
  | _ => .io

/-- WAITC (08 R180): waits until the class counter is at most N; a pending failure of the class stops the group instead (08 R181). For the
remote class the ordered-flag stores that have not been sent count as well (12 R272).
DEDUCED: log 78. -/
def execWaitc (c : BitVec 2) (n : BitVec 9) (st : BitVec 3) (s : State) : Host.Outcome State Fault Refusal :=
  perform (.waitc c n st) s (fun _ => [])
    (fun x => decide (n.toNat < (x.g.ctr (classOf c.toNat)).toNat + (if c = 2 then x.s.unsentFlags x.key else 0))) (fun _ => [])
    (fun x =>
      match Assoc.find c.toNat x.g.fails with
      | some f => x.raiseFailure (classOf c.toNat) f
      | none => x.retire { x.g with order := x.g.order.observe x.f.mask c.toNat } st.toNat)

/-- Whether a load of the issuing fragment has not taken effect. -/
def Ctx.loadsOpen (c : Ctx) : Bool :=
  c.s.ops.any (fun o => decide (o.2.group = c.key) && shares o.2.owner c.f.mask && (o.2.open_ || !o.2.sent.isEmpty) &&
    decide (o.2.dest ≠ .none))

/-- The group after a fence at a scope (6 for FENCER): its later loads read no earlier than its accesses so far, for FENCER its stores so far,
its later stores carry what stands before it, and it takes what its earlier loads returned (09 R197 rows 5 and 6, R200). -/
def Ctx.fenced (c : Ctx) (scope : Nat) (v : View) : Group :=
  let o := c.g.order
  let t := if scope = 6 then laneMax o.stored c.f.mask else max (laneMax o.last c.f.mask) (laneMax o.far c.f.mask)
  let o1 := o.raise c.f.mask scope (max (laneMax o.floor c.f.mask) t)
  let o2 := { o1 with
    fenced := { scope := scope, owner := c.f.mask, po := c.g.po, view := v } ::
      o1.fenced.filter (fun f => !(decide (f.scope = scope) && decide (f.owner = c.f.mask))) }
  let ms := c.s.msgs.filter (fun m => o.heard.any (fun h => decide (h.1 = m.id) && shares h.2 c.f.mask))
  { c.g with order := o2 }.takeAll (c.s.partyOf c.g) c.f.mask c.g.po scope ms

/-- The group after a FENCER. -/
def Ctx.afterFencer (c : Ctx) (v : View) : Group :=
  let g := c.fenced 6 v
  { g with order := { g.order with fencer := laneRaise g.order.fencer c.f.mask c.g.po } }

/-- The state in which the issuing fragment's open loads acquire at a scope what a FENCE behind them would. -/
def Ctx.fenceLoads (c : Ctx) (scope : BitVec 3) : State :=
  { c.s with ops := c.s.ops.map (fun o : Nat × MemOp =>
      if decide (o.2.group = c.key) && shares o.2.owner c.f.mask && decide (o.2.dest ≠ .none) then (o.1, { o.2 with fence := some scope }) else o) }

/-- FENCE (16 R382): completes at once at grp scope, and otherwise when every earlier access of the group has taken effect as the scope
requires. -/
def execFence (c : BitVec 3) (q : BitVec 2) (st : BitVec 3) (s : State) : Host.Outcome State Fault Refusal :=
  perform (.fence c q st) s (fun _ => []) (fun x => !x.released c.toNat || (decide (c ≠ 0) && x.loadsOpen)) (fun _ => [])
    (fun x => { x with s := x.fenceLoads c }.retire (x.fenced c.toNat (x.s.viewOf x.key x.g x.f.mask x.g.po)) st.toNat)

/-- The number of the next marker set to a chip (12 R275). -/
def State.nextMarker (s : State) (chip : Nat) : Nat := (Assoc.get 0 s.mseq chip + 1) % 2 ^ 16

/-- Packets leave this chip for another on planes; one to a chip that has packets in a plane's escape channel follows them there
(12 R288). -/
def State.emit (s : State) (dst : Nat) (ps : List (Nat × Output)) : State :=
  ps.foldl (fun s p =>
    let key := 256 * p.1 + dst
    let n := Assoc.get 0 s.escape key
    if n = 0 then { s with out := s.out ++ [p.2] }
    else { s with out := s.out ++ [.escaped p.2], escape := Assoc.set 0 s.escape key (n + 1) }) s

/-- Sends a marker set to a chip: one marker on each plane, before any later packet.
DEDUCED: log 81. -/
def State.sendMarkers (s : State) (chip : Nat) (report : Bool) : State :=
  let n := s.nextMarker chip
  { s with mseq := Assoc.set 0 s.mseq chip n }.emit chip ((List.range 8).map (fun k => (k, .marker chip k n report)))

/-- A waiting FENCER completes when every target has reported, every earlier remote store has been acknowledged or has failed, and
no ticket is open; the target set is then empty (12 R277). -/
def State.settleFencer (s : State) (key : Nat) : State :=
  match Assoc.find key s.groups with
  | some g =>
    match g.wait with
    | .fencer [] st =>
      if g.ctrRemote = 0 ∧ g.tickets = 0 ∧ s.groupTickets key = false then
        s.setGroup key { g with wait := .none, targets := [], readyAt := s.now g + 1 + st, readySince := s.clock }
      else s
    | _ => s
  | none => s

/-- Whether a store of the group to another chip has not been sent yet. -/
def Ctx.storesUnsent (c : Ctx) : Bool :=
  c.s.ops.any (fun o => decide (o.2.group = c.key) && o.2.accs.any (fun y => y.2.chip.isSome && y.2.writes)) ||
  c.s.groupTickets c.key

/-- FENCER (16 R384, 12 R277): once its group's earlier stores to other chips have been sent, it sends one marker set to each chip of
the target set and waits for their reports; with an empty set and no open ticket it completes at once. The group's later accesses take effect
after its earlier stores (09 R197 row 6).
DEDUCED: log 79. -/
def execFencer (q : BitVec 2) (st : BitVec 3) (s : State) : Host.Outcome State Fault Refusal :=
  perform (.fencer q st) s (fun _ => []) (fun x => x.storesUnsent) (fun _ => [])
    (fun x =>
      let chips := x.g.targets.map (fun t => t.1)
      let sets := chips.map (fun ch => (ch, x.s.nextMarker ch))
      let s1 := chips.foldl (fun s ch => s.sendMarkers ch true) x.s
      let s2 := x.done s1 { (x.afterFencer (x.s.viewOf x.key x.g x.f.mask x.g.po).stores).advance x.slot with wait := .fencer sets st.toNat, waitSince := x.now } st.toNat
      s2.settleFencer x.key)

/-- CCWAIT and CCWAIT.poll on a completion counter (15 R361). -/
def execCcwait (d a : BitVec 5) (m : BitVec 4) (q : BitVec 2) (st : BitVec 3) (s : State) : Host.Outcome State Fault Refusal :=
  objectInstr (.ccwait d a m q st) s (fun c => c.kpair a) (fun c => c.globalPlace (c.kpair a) false) 16 1 false (fun _ => false)
    (fun c pa =>
      let g0 := c.s.gen pa
      if c.s.remain pa = 0 then c.finish c.s (c.s.acquireObject c.g c.f.mask 4 pa 16 counterEvent) d.toNat (ccResult (c.s.cstatus pa) g0 true false false false) st.toNat
      else if m = 1 then c.finish c.s c.g d.toNat (ccResult (c.s.cstatus pa) g0 false false false false) st.toNat
      else (c.park c.s c.g d.toNat pa (c.kpair a) st.toNat 1 (.counter g0)).refreshWaiters pa (pa + 8) 8)

/-- CCTL: retention control, which changes no value, orders nothing and raises no fault (15 R360). -/
def execCctl (a b : BitVec 5) (m : BitVec 4) (q : BitVec 2) (st : BitVec 3) (s : State) : Host.Outcome State Fault Refusal :=
  simple (.cctl a b m q st) s (fun _ => []) (fun c => c.retire c.g st.toNat)

/-! ### MCAS (08 R184 to R188) -/

/-- Operations of a kind in flight on a die. -/
def State.locksOn (s : State) (die : Nat) (mcas : Bool) : Nat :=
  (s.locks.filter (fun x =>
    (match x.2.op with | .mcas _ _ _ => mcas | _ => !mcas) &&
    (match Assoc.find x.2.group s.groups with | some g => decide (dieOf g.core = die) | none => false))).length

/-- A group waits for the tumblers, with the global addresses translated for its operation; its program counter stays at the instruction
until the operation has been performed. -/
def Ctx.awaitLocks (c : Ctx) (s : State) (op : LockOp) (vas : List Nat) (st : Nat) : State :=
  let id := s.nextId
  let s1 := { s with
    nextId := id + 1, locks := Assoc.put id { group := c.key, slot := c.slot, pc := c.f.pc, op := op, vas := vas } s.locks
    issue := none, fresh := s.fresh + 1 }
  s1.setGroup c.key { (c.g.issued c.slot c.now 0).noteLater c.f.mask with wait := .locks id st, waitSince := c.now }

/-- The bytes of a sector of a parameter block, from a multiple of 64 of its offset, and the moment from which they are read: one snapshot for
each sector (08 R186). -/
def blockSector (pa sec : Nat) : List Nat := (List.range 64).map (fun i => pa + 64 * sec + i)
def Ctx.blockMoment (c : Ctx) (pa sec : Nat) : Nat :=
  let as := blockSector pa sec
  c.s.readMoment as (max (c.s.floorOf c.g.order c.f.mask as) c.s.base) (2 ^ 20 + sec)

/-- A field of a parameter block, which lies in one sector. -/
def Ctx.blockNat (c : Ctx) (pa off n : Nat) : Nat :=
  let t := c.blockMoment pa (off / 64)
  leNat ((List.range n).map (fun i => c.s.pastByte (pa + off + i) t))

/-- The fields of an MCAS's parameter block: COUNT, and an entry's ADDR, EXP and NEW. -/
def Ctx.mcasCount (c : Ctx) (pa : Nat) : Nat := c.blockNat pa 0 1
def Ctx.mcasScope (c : Ctx) (pa : Nat) : Nat := c.blockNat pa 1 1
def Ctx.mcasAddr (c : Ctx) (pa e : Nat) : Nat := c.blockNat pa (0x10 + 24 * e) 8

/-- The group after the reads of `n` sectors of the block. -/
def Ctx.sawBlock (c : Ctx) (pa n : Nat) : Group :=
  (List.range n).foldl (fun g k =>
    let as := blockSector pa k
    { g with order := g.order.see c.f.mask as (c.s.loadAt as 0 (c.blockMoment pa k)) false }) c.g

/-- Whether the block's own fields are at fault. -/
def Ctx.mcasBad (c : Ctx) (pa : Nat) : Bool :=
  decide (c.mcasCount pa = 0) || decide (8 < c.mcasCount pa) || decide (6 ≤ c.mcasScope pa) || decide (c.blockNat pa 2 2 ≠ 0) ||
  decide (c.blockNat pa 4 8 ≠ 0) || decide (c.blockNat pa 12 4 ≠ 0)

/-- The place of an MCAS entry of a group: global memory only; any other window raises a scope fault (KIND 0x0C). The fault names the entry
(08 R186). -/
def State.entryPlace (s : State) (g : Group) (va e : Nat) : Place :=
  let tag : Place → Place
    | .fault t => .fault { t with entry := BitVec.ofNat 8 e }
    | p => p
  if va ≥ 2 ^ 56 then tag (.fault (windowFault va true))
  else
    match windowOf va with
    | .global => tag (s.place g none va true)
    | .pod ch _ =>
      if ch = s.chipId then tag (s.place g none va true)
      else .fault { kind := 0x0C, write := true, addr := va, entry := BitVec.ofNat 8 e }
    | .reserved => tag (.fault (windowFault va true))
    | _ => .fault { kind := 0x0C, write := true, addr := va, entry := BitVec.ofNat 8 e }

/-- The entries of an MCAS with their places. -/
def State.mcasChecked (s : State) (g : Group) (vas : List Nat) : List Checked :=
  vas.mapIdx (fun e va => { lane := 0, va := va, place := s.entryPlace g va e })

/-- Whether two entries name one 8-byte word, by address or by place. -/
def Checked.sameWord (x y : Checked) : Bool :=
  decide (x.va / 8 = y.va / 8) ||
  (match x.place, y.place with | .here a _, .here b _ => decide (a / 8 = b / 8) | _, _ => false)

/-- The faults of an MCAS's entries (08 R186 step 2), the lowest entry first. -/
def State.entryTraps (s : State) (xs : List Checked) : List Trap :=
  (xs.mapIdx (fun e x =>
    (if x.va % 8 ≠ 0 ∨ (xs.take e).any (fun y => y.sameWord x) = true then [{ kind := 0x0B, addr := x.va, entry := BitVec.ofNat 8 e }] else []) ++
    (match x.place with
     | .fault t => [t]
     | .here flat _ => if s.poisoned flat then [poisonAt x.va true] else []
     | _ => []))).flatten

/-- The entries' addresses of a parameter block at a flat address. -/
def Ctx.mcasVas (c : Ctx) (pa : Nat) : List Nat := (List.range (c.mcasCount pa)).map (fun e => c.mcasAddr pa e)

/-- The sectors that a parameter block takes. -/
def Ctx.blockSectors (c : Ctx) (pa : Nat) : Nat := (16 + 24 * c.mcasCount pa + 63) / 64

/-- The faults of an MCAS: step 1 reads the block, whose poison comes before the parameters and entries of step 2. While the group's own
accesses hold the block back, it has not been read. -/
def Ctx.mcasTraps (c : Ctx) (va : Nat) : List Trap :=
  let p := c.globalPlace va false
  match p with
  | .here pa _ =>
    if va % 256 ≠ 0 then c.objectTraps va 256 1 false p
    else if c.objectHeld pa 208 then []
    else
      let n := if c.s.poisoned pa || decide (8 < c.mcasCount pa) then 1 else c.blockSectors pa
      match c.objectTraps va 256 n false p with
      | [] => if c.mcasBad pa then [{ kind := 0x0B, addr := va }] else c.s.entryTraps (c.s.mcasChecked c.g (c.mcasVas pa))
      | ts => ts
  | _ => c.objectTraps va 256 1 false p

/-- Whether an MCAS waits at issue: while its block or an entry is held back, a ticket is open, its die's limit is reached, or its release
has not been covered. -/
def Ctx.mcasWaits (c : Ctx) (va : Nat) : Bool :=
  match c.globalPlace va false with
  | .here pa _ =>
    c.objectHeld pa 208 || c.ticketsOpen || decide (256 ≤ c.s.locksOn (dieOf c.g.core) true) ||
    !c.released (c.mcasScope pa) ||
    (c.s.mcasChecked c.g (c.mcasVas pa)).any (fun x => match x.place with | .here flat _ => c.objectHeld flat 8 | _ => false)
  | _ => false

/-- MCAS (17 R417): checks everything, then waits for the tumblers; a group with an open ticket waits at it. -/
def execMcas (d a : BitVec 5) (q : BitVec 2) (st : BitVec 3) (s : State) : Host.Outcome State Fault Refusal :=
  perform (.mcas d a q st) s (fun _ => []) (fun c => c.mcasWaits (c.kpair a)) (fun c => c.mcasTraps (c.kpair a))
    (fun c =>
      match c.globalPlace (c.kpair a) false with
      | .held _ => c.hold (c.kpair a) false
      | .here pa f =>
        let vas := c.mcasVas pa
        let xs := c.s.mcasChecked c.g vas
        match heldBy xs with
        | some h => c.hold h.2 true
        | none =>
          let block : List Checked := [{ lane := 0, va := c.kpair a, place := .here pa f }]
          let c1 := { c with s := c.useMem false block }
          let c2 := { c1 with
            s := c1.useMem true xs
            g := { c.sawBlock pa (c.blockSectors pa) with spillTouched := c.g.spillTouched || c.touchesSpill (block ++ xs) } }
          let entries := xs.mapIdx (fun e x =>
            ((match x.place with | .here flat _ => flat | _ => 0), c.blockNat pa (0x18 + 24 * e) 8, c.blockNat pa (0x20 + 24 * e) 8))
          c2.awaitLocks ((List.range (c.blockSectors pa)).foldl (fun s k => s.noteRead (blockSector pa k) (c.blockMoment pa k)) c2.s)
            (.mcas d.toNat (c.mcasScope pa) entries) vas st.toNat
      | _ => c.withdrawn)

/-! ### ALLOC and FREE (11 R262, R263) -/

/-- A heap instruction on the descriptor that kA:kA+1 name. -/
def heapInstr (i : Instr) (s : State) (a : BitVec 5) (st : BitVec 3) (op : Ctx → Nat → LockOp) : Host.Outcome State Fault Refusal :=
  objectInstr i s (fun c => c.kpair a) (fun c => c.globalPlace (c.kpair a) true) 128 2 true
    (fun c => decide (64 ≤ c.s.locksOn (dieOf c.g.core) false) || !c.released 3)
    (fun c pa => c.awaitLocks c.s (op c pa) [c.kpair a] st.toNat)

/-- ALLOC (15 R338). -/
def execAlloc (d a b : BitVec 5) (q : BitVec 2) (st : BitVec 3) (s : State) : Host.Outcome State Fault Refusal :=
  heapInstr (.alloc d a b q st) s a st (fun c pa => .alloc d.toNat pa (c.kf b).toNat)

/-- FREE (16 R389). -/
def execFree (d a b : BitVec 5) (q : BitVec 2) (st : BitVec 3) (s : State) : Host.Outcome State Fault Refusal :=
  heapInstr (.free d a b q st) s a st (fun c pa => .free d.toNat pa (c.kpair b))

/-! ### DBELL (11 R242, R243) -/

/-- The place of doorbell queue `q`'s record in the I/O control block. -/
def dq (q : Nat) : Nat := 0x10000 + 0x40 * q

/-- The completion bitmap's bit `i` of a queue. -/
def State.bmapBit (s : State) (q i : Nat) : Bool := (s.byte (s.ctlNat .io (dq q + 8) 8 + i / 8)).getLsbD (i % 8)

/-- A refusal is counted, saturating. -/
def State.refuseBell (s : State) (q : Nat) : State :=
  s.ctlSet .io (dq q + 0x2C) 4 (min (2 ^ 32 - 1) (s.ctlNat .io (dq q + 0x2C) 4 + 1))

/-- The status of a DBELL of queue register `ka` and entry register `kb` (11 R243). -/
def State.bellStatus (s : State) (job ka kb : Nat) : Nat :=
  let q := ka % 2 ^ 12
  let i := kb % 2 ^ 16
  if 2 ^ 12 ≤ ka ∨ 2 ^ 16 ≤ kb then 4
  else if s.ctlNat .io (dq q + 0x28) 4 % 2 = 0 ∨ s.ctlNat .io (dq q + 0x1E) 2 ≠ job then 1
  else if s.ctlNat .io (dq q + 0x18) 4 ≤ i then 2
  else if s.bmapBit q i = true ∨ s.bells.any (fun b => decide (b.2.queue = q) && decide (b.2.index = i)) = true then 3
  else 0

/-- DBELL: with status 0 its mark is in flight and CTRIO rises. -/
def execDbell (d a b : BitVec 5) (q : BitVec 2) (st : BitVec 3) (s : State) : Host.Outcome State Fault Refusal :=
  perform (.dbell d a b q st) s (fun _ => []) (fun c => decide (c.g.ctrIo = 0xFFFF)) (fun _ => [])
    (fun c =>
      let status := c.s.bellStatus c.g.job (c.kf a).toNat (c.kf b).toNat
      if status = 0 then
        let bell : Bell := { group := c.key, po := c.g.po, owner := c.f.mask, queue := (c.kf a).toNat, index := (c.kf b).toNat }
        let s1 := { c.s with bells := Assoc.put c.s.nextId bell c.s.bells, nextId := c.s.nextId + 1 }
        c.finish s1 { c.g.ctrUp .io with po := c.g.po + 1 } d.toNat 0 st.toNat
      else
        let s1 := if status = 4 then c.s else c.s.refuseBell (c.kf a).toNat
        c.finish s1 c.g d.toNat (w32 status) st.toNat)

end Sys2Proof.Machine
end

