-- ==== Sys2Proof/Machine/Matrix.lean ====
section
/-! DEFINITION. Matrix instructions: descriptors and operands (17 R418 to R420, 18 R474), the products of 05 R104 to R106 and R114 to R118,
micro-tiles (10 R233 to R236), HADT, QTILE and the tile instructions, and the matrix unit's idle states (03 R72). -/

namespace Sys2Proof.Machine

/-! ### Descriptors and vectors -/

/-- A descriptor's 128 bits from k(n) to k(n+3). -/
def Ctx.kquad {w : Nat} (c : Ctx) (x : BitVec w) : Nat :=
  (List.range 4).foldl (fun a i => a + (c.k (x.toNat + i)).toNat * 2 ^ (32 * i)) 0

/-- Whether MMA accepts a pair of formats (17 R421). -/
def mmaPair (int : Bool) (a b : BitVec 5) : Bool :=
  decide (widthClass a ≠ 0) && decide (widthClass b ≠ 0) &&
  (if int then intTagOf a && intTagOf b && decide (widthClass a = widthClass b)
   else decide (widthClass a = widthClass b) || (decide (a = tBF16 ∨ a = tFP16) && decide (64 ≤ widthClass b)))

/-! ### Checks of spans -/

/-- The checks of a span: the first and the last byte of every page piece. -/
def Ctx.spanChecks (c : Ctx) (write : Bool) (sp : Nat × Nat) : List Checked :=
  (spanPieces sp.1 sp.2).flatMap (fun p =>
    let chk (a : Nat) : Checked := { lane := 0, va := a, place := c.objectPlace a write }
    if p.1 = p.2 then [chk p.1] else [chk p.1, chk p.2])

/-- The page table of an operation from its checks: each page's flat address of its first byte. -/
def pageMap (xs : List Checked) : List (Nat × Nat) :=
  xs.foldl (fun t x =>
    match x.place with
    | .here flat _ => Assoc.put (x.va / 65536) (flat - x.va % 65536) t
    | _ => t) []

/-! ### Reading operands (07 R157) -/

/-- An operation with a line shackled: its 256 bytes as they stand. -/
def MatrixOp.shackle (o : MatrixOp) (s : State) (ln : Nat) : MatrixOp :=
  if (Assoc.find ln o.lines).isSome then o
  else
    { o with
      lines := Assoc.put ln (memBytes s.mem (256 * ln) 256) o.lines
      seen := { lo := 256 * ln, len := 256, time := s.tick } :: o.seen }

/-- An operation with a scratchpad sector read: its 64 bytes as they stand. -/
def MatrixOp.readBank (o : MatrixOp) (s : State) (k : Nat) : MatrixOp :=
  if (Assoc.find k o.banks).isSome then o
  else
    { o with
      banks := Assoc.put k (memBytes s.mem (64 * k) 64) o.banks
      seen := { lo := 64 * k, len := 64, time := s.tick } :: o.seen }

/-- The lines that some micro-tiles read and that are not shackled yet. -/
def MatrixOp.unshackled (o : MatrixOp) (ms : List Nat) : List Nat :=
  ((ms.flatMap o.linesOf).eraseDups).filter (fun ln => (Assoc.find ln o.lines).isNone)

/-- An operation with everything read that some micro-tiles read: lines are shackled, sectors of a tile read at their banks; MMA reads its
scratchpad operands in place. -/
def MatrixOp.fetched (o : MatrixOp) (s : State) (ms : List Nat) : MatrixOp :=
  let o1 := ((ms.flatMap o.linesOf).eraseDups).foldl (fun o ln => o.shackle s ln) o
  match o.instr with
  | .mma .. => { o1 with seen := (ms.flatMap o.sectorsOf).map (fun k => { lo := 64 * k, len := 64, time := s.tick }) ++ o1.seen }
  | _ => (ms.flatMap o.sectorsOf).foldl (fun o k => o.readBank s k) o1

/-- A byte of an operand: from its shackled line, or as its sector was read, or at its bank. -/
def MatrixOp.byte (o : MatrixOp) (s : State) (va : Nat) : Byte :=
  let a := o.flat va
  match Assoc.find (a / 256) o.lines, Assoc.find (a / 64) o.banks with
  | some b, _ => b.getD (a % 256) 0
  | none, some b => b.getD (a % 64) 0
  | none, none => s.byte a

/-- The bytes of a span as one little-endian number. -/
def MatrixOp.spanNat (o : MatrixOp) (s : State) (va len : Nat) : Nat := leNat ((List.range len).map (fun i => o.byte s (va + i)))

/-- The first address of a list of spans in a poisoned sector. -/
def MatrixOp.poisonedAt (o : MatrixOp) (s : State) (sps : List (Nat × Nat)) : Option Nat :=
  sps.findSome? (fun sp =>
    ((List.range ((sp.1 + sp.2 - 1) / 64 + 1 - sp.1 / 64)).map (fun i => (sp.1 / 64 + i) * 64)).find? (fun a => s.poisoned (o.flat a)))

/-! ### Values (05 R104 to R106) -/

/-- A factor of a product: its value, and whether an invalid operation made it. -/
structure MVal where
  v : FVal
  bad : Bool := false
  deriving DecidableEq, Repr

/-- The NaN of an invalid operation in FP32, as a value. -/
def invalidVal (at_ : Site) : FVal := fp32.decode (fp32.invalidNan at_.pcword at_.lane)

/-- A NaN made quiet. -/
def FVal.hush : FVal → FVal
  | .nan n _ p => .nan n false p
  | x => x

/-- The exact product; a NaN factor propagates, the first first, and 0 × ∞ is invalid. -/
def MVal.times (at_ : Site) (x y : MVal) : MVal :=
  let bad := x.bad || y.bad || x.v.isSig || y.v.isSig
  if x.v.isNan then { v := x.v.hush, bad := bad }
  else if y.v.isNan then { v := y.v.hush, bad := bad }
  else
    match x.v.times y.v with
    | some p => { v := p }
    | none => { v := invalidVal at_, bad := true }

/-- The value of an S8 byte: none for a reserved code. -/
def s8Value (c : Nat) : Option FVal :=
  if 0xF8 ≤ c ∧ c ≤ 0xFE then none
  else if c = 0xFF then some (.nan false false 0)
  else if c < 8 then some (.num false c (-17))
  else some (.num false (8 + c % 8) ((c / 8 : Nat) - 18))

/-- The scaled value of element `k` of a vector (05 R106). -/
def scaledElem (at_ : Site) (t : BitVec 5) (vec k scale kTotal : Nat) : MVal :=
  let e : FVal :=
    match fmtOf t with
    | some f => f.decode (elemCode t vec k)
    | none => (match intElem t vec k with | .ok x => .num (decide (x < 0)) x.natAbs 0 | .error _ => .num false 0 0)
  let ts : MVal := { v := fp32.decode scale }
  if carriesS8 t then
    let code := bitsOf vec (8 * (vecElems t kTotal + k / 32)) 8
    if code = 0 then { v := .num false 0 0 }
    else
      match s8Value code with
      | some x => (if code = 0xFF then ({ v := x } : MVal) else MVal.times at_ { v := e } { v := x }).times at_ ts
      | none => { v := .num false 0 0 }
  else MVal.times at_ { v := e } ts

/-- The refused codes of a vector: position in the order of 05 R116 and cause. -/
def refusals (t : BitVec 5) (vec kTotal operand index : Nat) (scales : Bool) : List (Nat × BitVec 4) :=
  let key (k isElem : Nat) : Nat := ((k * 2 + isElem) * 2 + operand) * 64 + index
  (if scales && carriesS8 t then
     (List.range (kTotal / 32)).filterMap (fun b =>
       if (s8Value (bitsOf vec (8 * (vecElems t kTotal + b)) 8)).isNone then some (key (32 * b) 0, (1 : BitVec 4)) else none)
   else []) ++
  (if t = tI4X ∨ t = tI2T then
     (List.range kTotal).filterMap (fun k =>
       match intElem t vec k with | .error cause => some (key k 1, cause) | .ok _ => none)
   else [])

/-- The first refusal. -/
def firstRefusal (xs : List (Nat × BitVec 4)) : Option (BitVec 4) :=
  (xs.foldl (fun (r : Option (Nat × BitVec 4)) x => match r with | some y => if x.1 < y.1 then some x else r | none => some x) none).map
    (fun x => x.2)

/-! ### Sums (05 R114, R115) -/

/-- A group of eight products summed exactly and rounded once, and whether an invalid operation arose. -/
def groupSum (at_ : Site) (ps : List MVal) : Nat × Bool :=
  let bad := ps.any (fun p => p.bad)
  match fp32.propagate (ps.map (fun p => p.v)) with
  | some r => (r.code, bad || r.flags.invalid)
  | none => let r := fp32.sum 0 at_ (ps.map (fun p => p.v)); (r.code, r.flags.invalid)

/-- Groups of eight. -/
def eights {α : Type} : Nat → List α → List (List α)
  | 0, _ => []
  | n + 1, xs => match xs with | [] => [] | _ => xs.take 8 :: eights n (xs.drop 8)

/-- The next sum of an accumulator element, rounded. Of two NaNs a group sum's precedes that of C itself, since A and B come before C
(05 R112); `own` tells that the NaN in the running sum, where it holds one, is still C's. -/
def addSum (at_ : Site) (own : Bool) (x y : Nat) : FRes :=
  if own then fp32.add 0 at_ (fp32.decode y) (fp32.decode x) else fp32.add 0 at_ (fp32.decode x) (fp32.decode y)

/-- An FP32 accumulator element: the group sums added in ascending k, each addition rounded; and whether the result is a NaN of an
invalid operation. The third part of the accumulator tells that no NaN but C's has entered it: none of a group sum, and none that an addition
made. -/
def accumulate (at_ : Site) (c : Option Nat) (ps : List MVal) : Nat × Bool :=
  let r := (eights ps.length ps).foldl (fun (acc : Option Nat × Bool × Bool) grp =>
    let g := groupSum at_ grp
    match acc.1 with
    | none => (some g.1, acc.2.1 || g.2, false)
    | some x =>
      let y := addSum at_ acc.2.2 x g.1
      (some y.code, acc.2.1 || g.2 || y.flags.invalid,
        acc.2.2 && !(fp32.decode g.1).isNan && ((fp32.decode x).isNan || !(fp32.decode y.code).isNan))) (c, false, c.isSome)
  let code := r.1.getD 0
  (code, r.2.1 && (fp32.decode code).isNan)

/-! ### Micro-tiles -/

/-- What a micro-tile gives: its elements in row order with the lanes in which an invalid NaN arose, or the trap that stops it. -/
inductive TileResult where
  | elems (xs : List Word) (nans : List Nat)
  | stop (t : Trap)
  deriving DecidableEq, Repr

/-- An element of the tile an instruction read at issue. -/
def MatrixOp.src (o : MatrixOp) (i j : Nat) : Word := Assoc.get 0 o.source (64 * i + j)

/-- Where element (i, j) is computed: lane j mod 32. -/
def MatrixOp.site (o : MatrixOp) (j : Nat) : Site :=
  { pcword := o.pcword.toNat % 256 * 2 ^ 14 + o.pcword.toNat / 256, lane := j % 32 }

/-- The elements of micro-tile `m` by a function of row and column. -/
def tileElems (m : Nat) (f : Nat → Nat → Word × Bool) : TileResult :=
  let ps := (List.range 16).flatMap (fun i => (List.range 16).map (fun j => (tileRow m + i, tileCol m + j)))
  let rs := ps.map (fun p => (f p.1 p.2, p.2))
  .elems (rs.map (fun r => r.1.1)) (rs.filterMap (fun r => if r.1.2 then some (r.2 % 32) else none))

/-- Micro-tile `m` of MMA (17 R422). -/
def mmaTile (s : State) (o : MatrixOp) (int acc : Bool) (m : Nat) : TileResult :=
  let k := dK o.descA
  let ta := dFmt o.descA
  let tb := dFmt o.descB
  let va (i : Nat) : Nat := o.spanNat s (dBase o.descA + dPitch o.descA * (tileRow m + i)) (vecSpan ta k)
  let vb (j : Nat) : Nat := o.spanNat s (dBase o.descB + dPitch o.descB * (tileCol m + j)) (vecSpan tb k)
  let as := (List.range 16).map va
  let bs := (List.range 16).map vb
  match firstRefusal ((as.mapIdx (fun i v => refusals ta v k 0 i true)).flatten ++ (bs.mapIdx (fun j v => refusals tb v k 1 j true)).flatten) with
  | some cause => .stop { kind := 0x05, cause := cause }
  | none =>
    if int then
      let ia := as.map (fun v => (List.range k).map (fun n => match intElem ta v n with | .ok x => x | .error _ => 0))
      let ib := bs.map (fun v => (List.range k).map (fun n => match intElem tb v n with | .ok x => x | .error _ => 0))
      tileElems m (fun i j =>
        let t := List.zipWith (· * ·) (ia.getD (i - tileRow m) []) (ib.getD (j - tileCol m) [])
        (i32 (t.foldl (· + ·) (if acc then (o.src i j).toInt else 0)), false))
    else
      tileElems m (fun i j =>
        let at_ := o.site j
        let x := as.getD (i - tileRow m) 0
        let y := bs.getD (j - tileCol m) 0
        let ps := (List.range k).map (fun n =>
          (scaledElem at_ ta x n (dScale o.descA) k).times at_ (scaledElem at_ tb y n (dScale o.descB) k))
        let r := accumulate at_ (if acc then some (o.src i j).toNat else none) ps
        (w32 r.1, r.2))

/-- One output of HADT: the sum with signs (−1)^popcount(i AND k), scaled by 2^(−sh) and rounded once (05 R119). -/
def hadamard (at_ : Site) (xs : List Nat) (i sh : Nat) : Word × Bool :=
  let vs := xs.mapIdx (fun k x =>
    let v := fp32.decode x
    let v1 := match v with | .num n m e => FVal.num n m (e - sh) | y => y
    if popcount (w32 (Nat.land i k)) % 2 = 1 then v1.negate else v1)
  let r := (fp32.propagate vs).getD (fp32.sum 0 at_ vs)
  (w32 r.code, r.origin)

/-- Micro-tile `m` of HADT (16 R396). -/
def hadtTile (o : MatrixOp) (cols : Bool) (size m : Nat) : TileResult :=
  let n := 16 * 2 ^ size
  let sh := if size = 0 then 2 else 3
  tileElems m (fun i j =>
    let p := if cols then i else j
    let s0 := p / n * n
    let xs := (List.range n).map (fun k => (if cols then o.src (s0 + k) j else o.src i (s0 + k)).toNat)
    hadamard (o.site j) xs (p - s0) sh)

/-- Micro-tile `m` of an instruction with a destination tile. -/
def MatrixOp.tileResult (s : State) (o : MatrixOp) (m : Nat) : TileResult :=
  match o.instr with
  | .mma _ _ _ _ int acc => mmaTile s o (decide (int = 1)) (decide (acc = 1)) m
  | .hadt _ _ h n => hadtTile o (decide (h = 1)) n.toNat m
  | .zld .. =>
    tileElems m (fun i j => (w32 (o.spanNat s (dBase o.descA + dPitch o.descA * i + 4 * j) 4), false))
  | .zcvt _ _ r c =>
    tileElems m (fun i j =>
      if c = 0 then (i32 (toInteger r.toNat (-(2 ^ 31)) (2 ^ 31 - 1) (fp32.decode (o.src i j).toNat)).1, false)
      else (w32 (fp32.ofInt r.toNat (o.src i j).toInt).code, false))
  | .zmov _ _ t => tileElems m (fun i j => (if t = 1 then o.src j i else o.src i j, false))
  | _ => tileElems m (fun _ _ => (0, false))

/-- The destination tile of an instruction, and the tag it takes. -/
def MatrixOp.dest (o : MatrixOp) : Option (Nat × BitVec 5) :=
  match o.instr with
  | .mma z _ _ _ int _ => some (z.toNat, if int = 1 then tI32 else tFP32)
  | .hadt z _ _ _ => some (z.toNat, tFP32)
  | .zld z _ im => some (z.toNat, if im = 1 then tI32 else tFP32)
  | .zzero z im => some (z.toNat, if im = 1 then tI32 else tFP32)
  | .zcvt z _ _ c => some (z.toNat, if c = 0 then tI32 else tFP32)
  | .zmov z _ _ => some (z.toNat, o.srcTag)
  | _ => none

/-- The source tile of an instruction. -/
def matrixSource : Instr → Option Nat
  | .mma _ _ _ y _ acc => if acc = 1 then some y.toNat else none
  | .hadt _ y _ _ => some y.toNat
  | .qtile _ _ y mem _ _ => if mem = 1 then none else some y.toNat
  | .zst _ y => some y.toNat
  | .zsta _ y => some y.toNat
  | .zcvt _ y _ _ => some y.toNat
  | .zmov _ y _ => some y.toNat
  | _ => none

/-! ### Issue -/

/-- The descriptors an instruction reads: kA to kA+3 and kB to kB+3; QTILE reads three registers of its source. -/
def Ctx.matrixDescs (c : Ctx) : Instr → Nat × Nat
  | .mma _ a b _ _ _ => (c.kquad a, c.kquad b)
  | .qtile a b _ mem _ _ =>
    -- the source of R439 put in the places of an operand descriptor: format, pitch
    (if mem = 1 then
       let d := c.kquad a
       bitsOf d 0 64 + bitsOf d 64 5 * 2 ^ 64 + bitsOf d 84 12 * 2 ^ 84 + bitsOf d 69 15 * 2 ^ 69
     else 0, c.kquad b)
  | .zld _ a _ => (c.kquad a, 0)
  | .zst a _ => (c.kquad a, 0)
  | .zsta a _ => (c.kquad a, 0)
  | _ => (0, 0)

/-- The illegal-instruction trap of a tile memory descriptor: a reserved bit, or a PITCH64 below 4 (18 R474). -/
def tileMemTraps (d : Nat) : List Trap := if bitsOf d 56 28 ≠ 0 ∨ bitsOf d 84 12 < 4 then [illegal] else []

/-- The illegal-instruction and tag traps found in descriptors and tile tags. A reserved S8 has CAUSE 1 (10 R224); an explicit S8 of 0x00 or
0xFF, which QTILE refuses too (05 R121), has CAUSE 0.
DESIGN CHOICE: log 122. -/
def Ctx.matrixFields (c : Ctx) (i : Instr) : List Trap :=
  let d := c.matrixDescs i
  let bad (b : Bool) : List Trap := if b then [illegal] else []
  let tagT (b : Bool) : List Trap := if b then [tagTrap 0] else []
  let scaleT (b : Bool) : List Trap := if b then [{ kind := 0x05, cause := 1 }] else []
  let srcTag : BitVec 5 := match matrixSource i with | some t => c.g.tileTag t | none => tRAW
  let isFp := decide (srcTag = tFP32)
  let any3 := decide (srcTag = tFP32 ∨ srcTag = tI32 ∨ srcTag = tRAW)
  let tileMem := tileMemTraps d.1
  match i with
  | .mma _ _ _ _ int acc =>
    let fa := dFmt d.1
    let fb := dFmt d.2
    bad (decide (bitsOf d.1 56 8 ≠ 0) || decide (bitsOf d.2 56 8 ≠ 0) || decide (bitsOf d.1 69 3 ≠ 0) || decide (bitsOf d.2 69 3 ≠ 0) ||
         decide (bitsOf d.2 72 12 ≠ 0) || decide (dK d.1 = 0) || decide (dPitch d.1 = 0) || decide (dPitch d.2 = 0) ||
         ((carriesS8 fa || carriesS8 fb) && decide (dK d.1 % 32 ≠ 0))) ++
    tagT (!mmaPair (decide (int = 1)) fa fb || (decide (acc = 1) && decide (srcTag ≠ if int = 1 then tI32 else tFP32)))
  | .hadt .. => tagT (!isFp)
  | .qtile _ _ _ mem auto _ =>
    let s8 := bitsOf d.2 72 8
    bad (decide (bitsOf d.2 56 8 ≠ 0) || decide (bitsOf d.2 70 2 ≠ 0) || decide (bitsOf d.2 80 48 ≠ 0) ||
         (decide (mem = 1) && (decide (bitsOf d.1 69 15 ≠ 0) || decide (dPitch d.1 = 0)))) ++
    tagT ((if mem = 1 then decide (dFmt d.1 ≠ tFP32 ∧ dFmt d.1 ≠ tBF16) else !isFp) ||
          (decide (auto = 0) && decide (s8 = 0 ∨ s8 = 0xFF))) ++
    scaleT (decide (auto = 0) && decide (0xF8 ≤ s8 ∧ s8 ≤ 0xFE))
  | .zld .. => tileMem
  | .zst .. => tileMem ++ tagT (!any3)
  | .zsta .. => tileMem ++ tagT (decide (srcTag ≠ tFP32 ∧ srcTag ≠ tI32))
  | .zcvt _ _ _ c => tagT (decide (srcTag ≠ if c = 0 then tFP32 else tI32))
  | .zmov .. => tagT (!any3)
  | _ => []

/-- The misaligned addresses of an instruction. -/
def matrixAlign (i : Instr) (d : Nat × Nat) : List Trap :=
  let chk (va n : Nat) (w : Bool) : List Trap := if va % n ≠ 0 then [misaligned va w] else []
  match i with
  | .mma .. => chk (dBase d.1) 64 false ++ chk (dBase d.2) 64 false
  | .qtile _ _ _ mem _ _ => (if mem = 1 then chk (dBase d.1) 64 false else []) ++ chk (dBase d.2) 256 true
  | .zld .. => chk (dBase d.1) 64 false
  | .zst .. => chk (dBase d.1) 64 true
  | .zsta .. => chk (dBase d.1) 64 true
  | _ => []

/-- The checked accesses of an instruction's operands and outputs. -/
def Ctx.matrixChecks (c : Ctx) (i : Instr) : List Checked × List Checked :=
  let d := c.matrixDescs i
  ((matrixReads i d.1 d.2).flatMap (c.spanChecks false), (matrixWrites i d.1 d.2).flatMap (c.spanChecks true))

/-- The traps of a matrix instruction's check phase. -/
def Ctx.matrixTraps (c : Ctx) (i : Instr) : List Trap :=
  match c.matrixFields i with
  | [] =>
    (match matrixAlign i (c.matrixDescs i) with
     | [] =>
       let xs := c.matrixChecks i
       (xs.1 ++ xs.2).filterMap (fun x => match x.place with | .fault t => some t | _ => none)
     | ts => ts)
  | ts => ts

/-- The operation as it issues. -/
def Ctx.matrixNew (c : Ctx) (i : Instr) (pcword : BitVec 22) (replay : Bool) : MatrixOp :=
  let d := c.matrixDescs i
  let xs := c.matrixChecks i
  { instr := i, pcword := pcword, po := c.g.po, part := c.g.partNo, descA := d.1, descB := d.2
    source := match matrixSource i with
      | some t => (c.g.tiles.filter (fun e => decide (e.1 / 4096 = t))).map (fun e => (e.1 % 4096, e.2))
      | none => []
    srcTag := match matrixSource i with | some t => c.g.tileTag t | none => tRAW
    qthr := c.g.qthr.toNat % 64
    pages := pageMap (xs.1 ++ xs.2), progress := c.now, replay := replay }

/-- A partition's matrix unit executes (03 R72, R74). -/
def State.muWorked (s : State) (n : Nat) : State := s.setPart n { s.part n with ranMatrix := true, muLast := s.clock }

/-- The state after a matrix instruction has issued: CTRMATRIX rises, its destination is busy, its unit works. -/
def Ctx.matrixStart (c : Ctx) (i : Instr) (pcword : BitVec 22) (replay : Bool) : State × Group :=
  let xs := c.matrixChecks i
  let o := c.matrixNew i pcword replay
  let s1 := { c with s := c.useMem false xs.1 }.useMem true xs.2
  let g1 := { c.g.ctrUp .matrix with
    matrixOp := some o, po := c.g.po + 1, spillTouched := c.g.spillTouched || c.touchesSpill (xs.1 ++ xs.2)
    busy := match o.dest with | some z => c.g.busy ++ [Reg.z z.1] | none => c.g.busy }
  (s1.muWorked c.g.partNo, g1)

/-- The group whose operation a partition's matrix unit holds. -/
def State.muHolder (s : State) (part : Nat) : Option (Nat × Group × MatrixOp) :=
  s.groups.findSome? (fun x => match x.2.matrixOp with | some o => if o.part = part then some (x.1, x.2, o) else none | none => none)

/-- ZSTA instructions in flight on a die. -/
def State.zstaOn (s : State) (die : Nat) : Nat :=
  (s.groups.filter (fun x =>
    decide (dieOf x.2.core = die) && (match x.2.matrixOp with | some o => (match o.instr with | .zsta .. => true | _ => false) | none => false))).length

/-- A matrix instruction: a pending matrix failure stops the group instead (10 R234); toward an idle unit it waits, and the unit is
asked to leave idle (03 R72). -/
def matrixInstr (i : Instr) (s : State) : Host.Outcome State Fault Refusal :=
  perform i s
    (fun c => if c.f.mask = BitVec.allOnes 32 ∧ c.g.whole = true then [] else [{ kind := 0x03 }])
    (fun c => (c.s.muHolder c.g.partNo).isSome || decide (c.g.ctrMatrix = 0xFFFF) ||
      (match i with | .zsta .. => decide (64 ≤ c.s.zstaOn (dieOf c.g.core)) | _ => false))
    (fun c => c.matrixTraps i)
    (fun c =>
      let xs := c.matrixChecks i
      match Assoc.find 1 c.g.fails with
      | some f => c.raiseFailure .matrix f
      | none =>
        match heldBy xs.1, heldBy xs.2 with
        | some h, _ => c.hold h.2 false
        | none, some h => c.hold h.2 true
        | none, none =>
          let p := c.s.part c.g.partNo
          if p.mu = .awake then
            let r := c.matrixStart i c.f.pc.low false
            c.done r.1 (r.2.advance c.slot) 0
          else if p.mu = .idle then
            let s1 := c.withdrawn
            s1.setPart c.g.partNo { s1.part c.g.partNo with mu := .requested s1.clock }
          else c.withdrawn)

/-- MMA (17 R422). -/
def execMma (z : BitVec 3) (a b : BitVec 5) (y : BitVec 3) (im j : BitVec 1) (s : State) : Host.Outcome State Fault Refusal :=
  matrixInstr (.mma z a b y im j) s

/-- HADT (16 R396). -/
def execHadt (z y : BitVec 3) (h : BitVec 1) (n : BitVec 2) (s : State) : Host.Outcome State Fault Refusal :=
  matrixInstr (.hadt z y h n) s

/-- QTILE (17 R441). -/
def execQtile (a b : BitVec 5) (y : BitVec 3) (m u : BitVec 1) (t : BitVec 2) (s : State) : Host.Outcome State Fault Refusal :=
  matrixInstr (.qtile a b y m u t) s

/-- ZLD (18 R476). -/
def execZld (z : BitVec 3) (a : BitVec 5) (im : BitVec 1) (s : State) : Host.Outcome State Fault Refusal :=
  matrixInstr (.zld z a im) s

/-- ZST (18 R478). -/
def execZst (a : BitVec 5) (y : BitVec 3) (s : State) : Host.Outcome State Fault Refusal := matrixInstr (.zst a y) s

/-- ZSTA (18 R479). -/
def execZsta (a : BitVec 5) (y : BitVec 3) (s : State) : Host.Outcome State Fault Refusal := matrixInstr (.zsta a y) s

/-- ZZERO (18 R481). -/
def execZzero (z : BitVec 3) (im : BitVec 1) (s : State) : Host.Outcome State Fault Refusal := matrixInstr (.zzero z im) s

/-- ZCVT (18 R475). -/
def execZcvt (z y : BitVec 3) (r c : BitVec 2) (s : State) : Host.Outcome State Fault Refusal := matrixInstr (.zcvt z y r c) s

/-- ZMOV (18 R477). -/
def execZmov (z y : BitVec 3) (t : BitVec 1) (s : State) : Host.Outcome State Fault Refusal := matrixInstr (.zmov z y t) s

/-- TPREF: brings lines toward L2, changes no value, orders nothing and never faults (18 R462); a reserved bit of its descriptor or a
PITCH64 below 4 raises an illegal-instruction trap, and a BASE that is not aligned a misaligned-access trap (18 R474).
DEDUCED: log 143. -/
def execTpref (a : BitVec 5) (s : State) : Host.Outcome State Fault Refusal :=
  simple (.tpref a) s
    (fun c => tileMemTraps (c.kquad a) ++ (if dBase (c.kquad a) % 64 ≠ 0 then [misaligned (dBase (c.kquad a)) false] else []))
    (fun c => c.retire c.g 0)

/-! ### QTILE's encoding (05 R120, R121) -/

/-- The source elements of QTILE. -/
def MatrixOp.qElem (s : State) (o : MatrixOp) (mem : Bool) (i j : Nat) : FVal :=
  if mem then
    let row := dBase o.descA + dPitch o.descA * i
    if dFmt o.descA = tFP32 then fp32.decode (o.spanNat s (row + 4 * j) 4) else bf16.decode (o.spanNat s (row + 2 * j) 2)
  else fp32.decode (o.src i j).toNat

/-- The target of QTILE: its format, or none for I4. -/
def qTarget (tgt : Nat) : Option Fmt :=
  match tgt with
  | 0 => some e2m1
  | 1 => some e2m3
  | 2 => some e3m2
  | _ => none

/-- m × 2^e divided by an S8 value, as a quotient with 64 further bits and whether it is exact. -/
def quotient (m : Nat) (e : Int) (s8 : FVal) : Nat × Int × Bool :=
  match s8 with
  | .num _ d e' => (m * 2 ^ 64 / d, e - e' - 64, decide (m * 2 ^ 64 % d ≠ 0))
  | _ => (0, 0, false)

/-- The code of one element, and whether it is a nonzero element that became zero.
DEDUCED: log 21. -/
def qEncode (tgt : Nat) (s8 : FVal) (x : FVal) : Nat × Bool :=
  match x with
  | .num n m e =>
    if m = 0 then ((match qTarget tgt with | some f => f.signed n 0 | none => 0), false)
    else
      let q := quotient m e s8
      (match qTarget tgt with
       | some f => let r := (f.round 0 n q.1 q.2.1 q.2.2).1; (f.signed n r, decide (r = 0))
       | none =>
         let big := decide (16 ≤ q.2.1 + (Nat.log2 q.1 : Int))
         let r := if big then 7 else min 7 (roundQ 0 n q.1 (-q.2.1) q.2.2).1
         (if n then (16 - r) % 16 else r, decide (r = 0)))
  | _ => (0, false)

/-- The largest finite value of a target. -/
def qMax (tgt : Nat) : FVal :=
  match tgt with
  | 0 => .num false 6 0
  | 1 => .num false 15 (-1)
  | 2 => .num false 28 0
  | _ => .num false 7 0

/-- The absolute value of a number. -/
def FVal.magnitude : FVal → FVal
  | .num _ m e => .num false m e
  | x => x

/-- The S8 code that `.auto` chooses for a block of largest value `big`, with its history count (05 R121). -/
def autoS8 (tgt hist thr : Nat) (big : FVal) : Nat :=
  let suffices_ (c : Nat) : Bool :=
    match s8Value c with
    | some v => (match v.times (qMax tgt) with | some p => !p.less big | none => false)
    | none => false
  let c := (((List.range 0xF7).map (fun i => i + 1)).find? suffices_).getD 0xF7
  if thr < hist ∧ 0x10 ≤ c then c - 8 else c

/-- A block of 32 elements encoded: its S8 code, the element codes and the underflow count. -/
def qBlock (tgt : Nat) (explicit : Option Nat) (hist thr : Nat) (xs : List FVal) : Nat × List Nat × Nat :=
  if xs.any (fun x => x.isNan || x.isInf) then (0xFF, xs.map (fun _ => 0), 0)
  else if xs.all FVal.isZero then (0, xs.map (fun x => (qEncode tgt (.num false 1 0) x).1), 0)
  else
    let big := xs.foldl (fun b x => if b.less x.magnitude then x.magnitude else b) (FVal.num false 0 0)
    let c := explicit.getD (autoS8 tgt hist thr big)
    let rs := xs.map (qEncode tgt ((s8Value c).getD (.num false 1 0)))
    (c, rs.map (fun r => r.1), (rs.filter (fun r => r.2)).length)

/-- The bytes of packed codes of a target, 4 bits or 8 bits each. -/
def packCodes (tgt : Nat) : List Nat → List Byte
  | [] => []
  | x :: [] => [BitVec.ofNat 8 x]
  | x :: y :: t =>
    if tgt = 0 ∨ tgt = 3 then BitVec.ofNat 8 (x + 16 * y) :: packCodes tgt t
    else BitVec.ofNat 8 x :: BitVec.ofNat 8 y :: packCodes tgt t

/-- One output vector of QTILE: its bytes and the two counts; `v` from 64 on are the column-blocked copy. -/
def MatrixOp.qVector (s : State) (g : Group) (o : MatrixOp) (mem auto : Bool) (tgt v : Nat) : List Byte × List Nat :=
  let d := o.descB
  let hist (b : Nat) : Nat := (Assoc.get 0 g.qhist (256 * bitsOf d 64 6 + 2 * v + b)).toNat % 64
  let blk (b : Nat) : Nat × List Nat × Nat :=
    qBlock tgt (if auto then none else some (bitsOf d 72 8)) (hist b) o.qthr ((List.range 32).map (fun n =>
      if v < 64 then o.qElem s mem v (32 * b + n) else o.qElem s mem (32 * b + n) (v - 64)))
  let b0 := blk 0
  let b1 := blk 1
  (packCodes tgt (b0.2.1 ++ b1.2.1) ++ [BitVec.ofNat 8 b0.1, BitVec.ofNat 8 b1.1], [b0.2.2, b1.2.2])

/-- The output bytes of QTILE and its new history counts. -/
def MatrixOp.qOutput (s : State) (g : Group) (o : MatrixOp) (mem auto : Bool) (tgt : Nat) : List (Nat × Byte) × List (Nat × Byte) :=
  let vs := (List.range 128).map (fun v => (v, o.qVector s g mem auto tgt v))
  (vs.flatMap (fun x => x.2.1.mapIdx (fun n b => (dBase o.descB + 128 * x.1 + n, b))),
   vs.flatMap (fun x => x.2.2.mapIdx (fun b n => (256 * bitsOf o.descB 64 6 + 2 * x.1 + b, BitVec.ofNat 8 n))))

/-! ### Outputs to memory -/

/-- The source tile's bytes at the addresses of a tile memory descriptor. -/
def MatrixOp.tileCells (o : MatrixOp) : List (Nat × Byte) :=
  (List.range 4096).flatMap (fun e =>
    (leBytes 4 (o.src (e / 64) (e % 64)).toNat).mapIdx (fun n b => (dBase o.descA + dPitch o.descA * (e / 64) + 4 * (e % 64) + n, b)))

/-- The bytes an instruction writes, by virtual address. A byte of QTILE's output that overlaps its source is a free value. -/
def MatrixOp.cells (s : State) (g : Group) (o : MatrixOp) : List (Nat × Byte) :=
  match o.instr with
  | .zst .. => o.tileCells
  | .qtile _ _ _ mem auto t =>
    let rd := o.reads 0
    let inSource (a : Nat) : Bool := rd.any (fun sp =>
      decide (o.flat sp.1 ≤ o.flat a) && decide (o.flat a < o.flat sp.1 + sp.2))
    (o.qOutput s g (decide (mem = 1)) (decide (auto = 1)) t.toNat).1.mapIdx (fun n c =>
      if inSource c.1 then (c.1, Config.freeByte s.fresh n) else c)
  | _ => []

/-- A scratchpad byte written by an agent is noted by the MMA operations whose operands it may belong to (17 R423).
DEDUCED: log 58. -/
def MatrixOp.noteWrite (o : MatrixOp) (cells : List Host.Cell) : MatrixOp :=
  let mine := cells.filter (fun c => decide (2 ^ 52 ≤ c.1) && o.pages.any (fun p => decide (p.2 ≤ c.1) && decide (c.1 < p.2 + 65536)))
  { o with dirty := mine.foldl (fun t c => Assoc.set false t c.1 true) o.dirty }

/-- Notes scratchpad bytes written. -/
def State.noteScratch (s : State) (cells : List Host.Cell) : State :=
  if cells.any (fun c => decide (2 ^ 52 ≤ c.1)) then
    { s with groups := s.groups.map (fun x : Nat × Group =>
        match x.2.matrixOp with
        | some o => (match o.instr with | .mma .. => (x.1, { x.2 with matrixOp := some (o.noteWrite cells) }) | _ => x)
        | none => x) }
  else s

/-- A store by an agent: the bytes, and what the operations in flight note of them. -/
def State.agentStore (s : State) (cells : List Host.Cell) (rmw : Bool := false) : State := (s.store cells rmw).noteScratch cells

/-! ### Stores to live objects (02 R34; 08 R165, R173) -/

/-- Where a span of a job's global memory lies: flat address of its part in each page, length, and offset of the part in the span. -/
def State.pieces (s : State) (job : Nat) (mask : BitVec 16) (va len : Nat) : List (Nat × Nat × Nat) :=
  (spanPieces va len).filterMap (fun p =>
    match s.reach job mask p.1 true with | .at flat _ => some (flat, p.2 + 1 - p.1, p.1 - va) | _ => none)

/-- Whether a flat address lies in a launch, unit, graph, phase or job counter of a live launch. -/
def State.inLiveCounter (s : State) (flat : Nat) : Bool :=
  s.launches.any (fun x =>
    let l := x.2
    [l.ctrs.graph, l.ctrs.phase, l.ctrs.jobc].any (fun va =>
      match s.reach l.job l.gmask va true with | .at f _ => decide (f ≤ flat) && decide (flat < f + 16) | _ => false) ||
    (s.pieces l.job l.keymask l.block (32 + 16 * l.units)).any (fun p =>
      decide (p.1 ≤ flat) && decide (flat < p.1 + p.2.1) && !decide (bitsOf (p.2.2 + (flat - p.1)) 4 20 = 1)))

/-- The fields that a software store makes undefined: of a live counter, or one on which a group is parked, REMAIN, STATUS and GEN; of a
barrier object in use EXPECT, FLAGS and the counts; of a ring in use all fields. -/
def State.spoiled (s : State) (cells : List Host.Cell) : List Nat :=
  let hit (pa n : Nat) : Bool := cells.any (fun c => decide (pa ≤ c.1) && decide (c.1 < pa + n))
  let from_ (pa : Nat) (l : List Nat) : List Nat := l.map (fun i => pa + i)
  (if s.launches.isEmpty then [] else
    (((cells.filter (fun c => s.inLiveCounter c.1)).map (fun c => c.1 / 16 * 16)).eraseDups.flatMap (fun pa => from_ pa (List.range 8)))) ++
  s.groups.flatMap (fun x =>
    match x.2.wait with
    | .object _ pa _ _ what =>
      (match what with
       | .take => if hit pa 32 then from_ pa (List.range 32) else []
       | .acquire => if hit pa 32 then from_ pa (List.range 32) else []
       | _ => if hit pa 16 then from_ pa (List.range 8) else [])
    | _ => []) ++
  s.objs.flatMap (fun x =>
    if x.2 then (if hit x.1 32 then from_ x.1 (List.range 32) else []) else (if hit x.1 16 then from_ x.1 (List.range 8) else []))

/-- The objects on which groups are parked that a store changes (08 R190). -/
def State.waitedOn (s : State) (cells : List Host.Cell) : List Nat :=
  s.groups.filterMap (fun x =>
    match x.2.wait with
    | .object _ pa _ _ what =>
      let n := match what with | .take => 32 | .acquire => 32 | _ => 16
      if cells.any (fun c => decide (pa ≤ c.1) && decide (c.1 < pa + n)) then some pa else none
    | _ => none)

/-- A store by software: its bytes, and free values in the fields of live objects that it makes undefined. An object so stored to is no
longer in use, unless a group is parked on it or a vector is bound to it.
DEDUCED: log 28. -/
def State.softwareStore (s : State) (cells : List Host.Cell) (rmw : Bool := false) : State :=
  let s1 := (s.waitedOn cells).foldl State.touch (s.agentStore cells rmw)
  match s.spoiled cells with
  | [] => s1
  | as =>
    let hit (pa n : Nat) : Bool := cells.any (fun c => decide (pa ≤ c.1) && decide (c.1 < pa + n))
    { s1.store (as.eraseDups.mapIdx (fun i a => (a, Config.freeByte s.fresh (2 ^ 26 + i)))) with
      fresh := s.fresh + 1
      objs := s.objs.filter (fun x => !hit x.1 (if x.2 then 32 else 16) || s.parked x.1 || (!x.2 && decide (bitsOf (s.signal x.1) 17 1 = 1))) }

/-! ### The stores of an operation -/

/-- Stores the cells of one output sector of an operation, named by its virtual address divided by 64. -/
def State.storeSector (s : State) (o : MatrixOp) (cells : List (Nat × Byte)) (sec : Nat) : State :=
  s.softwareStore ((cells.filter (fun c => decide (c.1 / 64 = sec))).map (fun c => (o.flat c.1, c.2)))

/-- The output sectors not yet written. -/
def MatrixOp.pending (o : MatrixOp) (cells : List (Nat × Byte)) : List Nat :=
  ((cells.map (fun c => c.1 / 64)).eraseDups).filter (fun k => !Assoc.get false o.written k)

/-- The sums of ZSTA: new bytes by flat address, and the columns in which an invalid NaN arose (18 R479). -/
def MatrixOp.sums (s : State) (o : MatrixOp) : List Host.Cell × List Nat :=
  let rs := (List.range 4096).map (fun e =>
    let a := o.flat (dBase o.descA + dPitch o.descA * (e / 64) + 4 * (e % 64))
    let m := s.nat a 4
    let z := (o.src (e / 64) (e % 64)).toNat
    if o.srcTag = tI32 then (a, (m + z) % 2 ^ 32, false, e % 64)
    else let r := fp32.add 0 (o.site (e % 64)) (fp32.decode m) (fp32.decode z); (a, r.code, r.origin, e % 64))
  (rs.flatMap (fun r => cellsOf r.1 4 r.2.1), rs.filterMap (fun r => if r.2.2.1 then some (r.2.2.2 % 32) else none))

/-! ### Completion and failure (10 R234, R236) -/

/-- The group with a matrix operation's invalid NaN recorded in FNAN. -/
def Group.matrixNan (g : Group) (o : MatrixOp) : Group :=
  match o.nan with
  | some l => g.noteNan ⟨BitVec.ofNat 8 o.pcword.toNat, BitVec.ofNat 14 (o.pcword.toNat / 256), false⟩ l
  | none => g

/-- Whether a vector of an MMA operand holds a byte that was written during the operation. -/
def MatrixOp.vectorDirty (o : MatrixOp) (d v : Nat) : Bool :=
  (List.range (vecSpan (dFmt d) (dK o.descA))).any (fun n => Assoc.get false o.dirty (o.flat (dBase d + dPitch d * v + n)))

/-- The group with the elements of completed micro-tiles undefined whose products read a byte written during the operation. -/
def Group.undefineDirty (g : Group) (fresh : Nat) (o : MatrixOp) : Group :=
  if o.dirty.isEmpty then g
  else
    match o.dest with
    | some (z, _) =>
      let rows := (List.range 64).filter (fun i => o.vectorDirty o.descA i)
      let cols := (List.range 64).filter (fun j => o.vectorDirty o.descB j)
      (List.range 4096).foldl (fun g e =>
        if !g.tileOpen (4 * (e / 64 / 16) + e % 64 / 16) && (rows.contains (e / 64) || cols.contains (e % 64)) then
          g.setTile z (e / 64) (e % 64) (Config.freeWord fresh e)
        else g) g
    | none => g

/-- The group freed of a matrix operation that has ended. -/
def Group.matrixOver (g : Group) (o : MatrixOp) : Group :=
  { (((g.matrixNan o).ctrDown .matrix).engineDone 1 o.seen) with
    matrixOp := none
    busy := match o.dest with | some z => g.busy.filter (fun r => decide (r ≠ .z z.1)) | none => g.busy
    wait := if o.replay then .none else g.wait }

/-- A matrix operation fails: CTRMATRIX falls and a failure is left pending, ENTRY naming the micro-tile; the failure of a REPLAY stops
its group again (10 R235). -/
def State.matrixFail (s : State) (key : Nat) (g : Group) (o : MatrixOp) (entry : Nat) (t : Trap) : State :=
  let t1 := { t with entry := BitVec.ofNat 8 entry }
  let g1 := (g.undefineDirty s.fresh o).matrixOver o
  let s1 := { s with fresh := s.fresh + 1 }.muWorked o.part
  match g.wait with
  | .replay slot _ => groupStop (s1.setGroup key g1) key slot (g1.live slot).pc t1 (some .matrix) 0 (some (o.pcword.zeroExtend 64))
  | _ => s1.setGroup key (g1.addFailure .matrix t1 o.pcword)

/-- The lowest micro-tile that has not completed: micro-tiles run in ascending order (10 R233). -/
def Group.nextTile (g : Group) : Nat := ((List.range 16).find? (fun m => g.tileOpen m)).getD 0

/-- Whether a group's matrix operation has memory operands whose home is being taken over or switches its rate (13 R292, R308). -/
def State.matrixPaused (s : State) (key : Nat) : Bool :=
  match Assoc.find key s.groups with
  | some g =>
    (match g.matrixOp with
     | some o => o.pages.any (fun p => (List.range 256).any (fun i => s.homeWaits (p.2 + 256 * i)))
     | none => false)
  | none => false

/-- The earlier accesses of the group, and those that it acquired, have taken effect (09 R197 row 10), and the operation's memory is
served. -/
def State.engineReady (s : State) (key po : Nat) (owner : Mask) : Bool :=
  !s.matrixPaused key &&
  (match Assoc.find key s.groups with | some g => s.debtsPaid g owner po none | none => true) &&
  s.ops.all (fun o => !(decide (o.2.group = key) && decide (o.2.po < po) && decide (o.2.owner &&& owner ≠ 0) && o.2.open_))

/-- Poison on the tile lines that an operation reads (10 R229). -/
def Group.tilePoison (g : Group) (o : MatrixOp) : Bool :=
  match matrixSource o.instr with
  | some t => g.imagePoisoned (0xC000 + 0x4000 * t) 0x4000
  | none => false

/-- Poison on the tile lines that micro-tile `m` reads: for an accumulator the lines of its own elements; the other instructions read the
whole tile first (16 R396; 18 R475, R477). -/
def Group.tilePoisonAt (g : Group) (o : MatrixOp) (m : Nat) : Bool :=
  match o.instr, matrixSource o.instr with
  | .mma .., some t => (List.range 16).any (fun i => g.imagePoisoned (0xC000 + 0x4000 * t + 256 * (tileRow m + i) + 4 * tileCol m) 64)
  | _, _ => g.tilePoison o

/-- A group with micro-tile `m` of a tile written. -/
def Group.writeTile (g : Group) (z m : Nat) (xs : List Word) : Group :=
  (List.range 256).foldl (fun g n => g.setTile z (tileRow m + n / 16) (tileCol m + n % 16) (xs.getD n 0)) g

/-- The next micro-tile of an operation with a destination tile: it shackles the lines it reads, and then completes or stops the
operation. -/
def State.microTile (s : State) (key : Nat) (g : Group) (o : MatrixOp) (m : Nat) : State :=
  let o1 := o.fetched s [m]
  match o1.poisonedAt s (o1.reads m) with
  | some a => s.matrixFail key g o1 m { kind := 0x0F, cause := 1, addr := a }
  | none =>
    if g.tilePoisonAt o1 m then s.matrixFail key g o1 m { kind := 0x0F, cause := 1 }
    else
      match o1.tileResult s m, o1.dest with
      | .stop t, _ => s.matrixFail key g o1 m t
      | .elems xs nans, some (z, tag) =>
        let low := nans.foldl (fun (a : Option Nat) l => match a with | some x => some (min x l) | none => some l) o1.nan
        let g1 := (g.writeTile z m xs).setTileTag z tag
        (s.muWorked o1.part).setGroup key { g1 with
          mtmask := g1.mtmask ||| BitVec.ofNat 16 (2 ^ m)
          matrixOp := some { o1 with progress := (s.part o1.part).cycle, nan := low } }
      | .elems _ _, none => s

/-- Whether a matrix operation of a cancelled group stops part-way here (10 R234), a free choice.
DESIGN CHOICE: log 116. -/
def State.stopsCancelled (s : State) (g : Group) : Bool := g.cancelled && decide (Config.freeNat s.fresh 9 % 2 = 1)

/-- MICRO_TILE_COMPLETE of a group's operation. -/
def execMicroTileComplete (s : State) : Host.Outcome State Fault Refusal :=
  let s1 := { s with input := .none }
  match s.input with
  | .one key =>
    match Assoc.find key s.groups with
    | some g =>
      match g.matrixOp with
      | some o =>
        if o.dest.isSome && decide (g.mtmask ≠ 0xFFFF) && s.engineReady key o.po (BitVec.allOnes 32) then
          .next (if s.stopsCancelled g then s1.matrixFail key g o g.nextTile { kind := 0x11 }
            else s1.microTile key g o g.nextTile)
        else .next s1
      | none => .next s1
    | none => .next s1
  | _ => .next s1

/-- The scratchpad lines that a list of flat cells covers whole. -/
def scratchLines (cells : List Host.Cell) : List Nat := (wholeLines cells).filter (fun ln => decide (2 ^ 44 ≤ ln))

/-- An operation that has written some output sectors now. -/
def MatrixOp.wroteAll (o : MatrixOp) (s : State) (ks : List Nat) : MatrixOp :=
  { o with seen := ks.map (fun k => { lo := o.flat (64 * k), len := 64, time := s.tick, store := true }) ++ o.seen }

/-- The state after an operation's outputs have been made and it has completed. -/
def State.matrixDone (s : State) (key : Nat) (g : Group) (o : MatrixOp) : State :=
  let s1 := s.muWorked o.part
  match o.instr with
  | .zst .. =>
    let cells := o.cells s g
    let s2 := (o.pending cells).foldl (fun s k => s.storeSector o cells k) s1
    let s3 := s2.clearMarks ((scratchLines (cells.map (fun c => (o.flat c.1, c.2)))).filter (fun ln => !o.remarked.contains ln))
    s3.setGroup key (g.matrixOver (o.wroteAll s (o.pending cells)))
  | .qtile _ _ _ mem auto t =>
    let o1 := o.fetched s (List.range 16)
    let cells := o1.cells s g
    let hist := (o1.qOutput s g (decide (mem = 1)) (decide (auto = 1)) t.toNat).2
    let s2 := (o1.pending cells).foldl (fun s k => s.storeSector o1 cells k) s1
    s2.setGroup key { g.matrixOver (o1.wroteAll s (o1.pending cells)) with qhist := hist.foldl (fun h c => Assoc.set 0 h c.1 c.2) g.qhist }
  | .zsta .. =>
    let r := o.sums s
    let low := r.2.foldl (fun (a : Option Nat) l => match a with | some x => some (min x l) | none => some l) none
    let s2 := (s1.softwareStore r.1).clearMarks (scratchLines r.1)
    s2.setGroup key (g.matrixOver { o with
      nan := low, seen := (runs (r.1.map (fun c => c.1))).map (fun x => { lo := x.1, len := x.2, time := s.tick, store := true }) ++ o.seen })
  | _ =>
    let g1 := (g.undefineDirty s.fresh o).matrixOver o
    let g2 := match o.dest with | some (z, _) => g1.cleanImage (0xC000 + 0x4000 * z) 0x4000 | none => g1
    { s1.setGroup key { g2 with mtmask := 0 } with fresh := s.fresh + 1 }

/-- The flat sectors an operation has still to write are free of shackles of other operations. -/
def State.outputsFree (s : State) (key : Nat) (g : Group) (o : MatrixOp) : Bool :=
  match o.instr with
  | .zst .. => (o.pending (o.cells s g)).all (fun k => !s.shackledFor key (o.flat (64 * k)))
  | .qtile .. => (o.pending (o.cells s g)).all (fun k => !s.shackledFor key (o.flat (64 * k)))
  | .zsta .. => (matrixWrites o.instr o.descA o.descB).all (fun sp => !s.shackledFor key (o.flat sp.1))
  | _ => true

/-- The memory that an operation without micro-tiles reads: the source of QTILE, the destination that ZSTA adds to. -/
def MatrixOp.outputReads (o : MatrixOp) : List (Nat × Nat) :=
  match o.instr with
  | .zsta .. => matrixWrites o.instr o.descA o.descB
  | _ => o.reads 0

/-- Poison that an operation without micro-tiles meets: on its tile lines, or in the memory that it reads (10 R229).
DEDUCED: log 57. -/
def State.outputPoison (s : State) (g : Group) (o : MatrixOp) : Option Trap :=
  if o.dest.isSome then none
  else if g.tilePoison o then some { kind := 0x0F, cause := 1 }
  else (o.poisonedAt s o.outputReads).map (fun a => { kind := 0x0F, cause := 1, addr := a })

/-- One access of a matrix operation that takes effect before its micro-tile or its operation completes: with `n` even, source line
`n / 2` is shackled, where there is room (07 R157, R158), or, from 2^46 on, scratchpad sector `n / 2` of a tile is read (18 R476); with `n`
odd, output sector `n / 2` of ZST or QTILE is written. -/
def State.matrixEffect (s : State) (key : Nat) (g : Group) (o : MatrixOp) (n : Nat) : State :=
  let k := n / 2
  if n % 2 = 0 then
    if 2 ^ 46 ≤ k then (if g.stillReads o (64 * k) then s.setGroup key { g with matrixOp := some (o.readBank s k) } else s)
    else if g.stillReads o (256 * k) && s.shackleRoom g.core [k] then s.setGroup key { g with matrixOp := some (o.shackle s k) }
    else s
  else if o.dest.isSome || (s.outputPoison g o).isSome then s
  else
    let o1 := match o.instr with | .qtile .. => o.fetched s (List.range 16) | _ => o
    let cells := o1.cells s g
    if (o1.pending cells).contains k && !s.shackledFor key (o1.flat (64 * k)) then
      let o2 := o1.wroteAll s [k]
      (s.storeSector o1 cells k).mapGroup key (fun g =>
        { g with matrixOp := g.matrixOp.map (fun x =>
            { x with lines := o2.lines, banks := o2.banks, seen := o2.seen, written := Assoc.set false x.written k true }) })
    else s

/-- MATRIX_OP_COMPLETE of a group's operation. -/
def execMatrixOpComplete (s : State) : Host.Outcome State Fault Refusal :=
  let s1 := { s with input := .none }
  match s.input with
  | .one key =>
    match Assoc.find key s.groups with
    | some g =>
      match g.matrixOp with
      | some o =>
        if (o.dest.isNone || decide (g.mtmask = 0xFFFF)) && s.engineReady key o.po (BitVec.allOnes 32) && s.outputsFree key g o then
          match s.outputPoison g o with
          | some t => .next (s1.matrixFail key g o 0 t)
          | none => .next (if o.dest.isNone && s.stopsCancelled g then s1.matrixFail key g o 0 { kind := 0x11 } else s1.matrixDone key g o)
        else .next s1
      | none => .next s1
    | none => .next s1
  | _ => .next s1

/-! ### The matrix unit (03 R72, 10 R236, 13 R294) -/

/-- MU_IDLE_ENTRY of a partition that has executed no operation for 1,024 cycles. -/
def execMuIdleEntry (s : State) : Host.Outcome State Fault Refusal :=
  let s1 := { s with input := .none }
  match s.input with
  | .one n =>
    let p := s.part n
    if p.mu = .awake ∧ (s.muHolder n).isNone = true ∧ p.muLast + 1024 ≤ s.clock then .next (s1.setPart n { p with mu := .idle })
    else .next s1
  | _ => .next s1

/-- Matrix units of a die that are out of idle. -/
def State.muOut (s : State) (die : Nat) : Nat :=
  512 - (s.parts.filter (fun x => decide (x.1 / 512 = die) &&
    (match x.2.mu with | .idle => true | .requested _ => true | _ => false))).length

/-- MUCAP of a die. -/
def State.mucap (s : State) (die : Nat) : Nat := s.ctlNat .memctl (0x400 + 4 * die) 4 % 1024

/-- Whether a partition's request to leave idle is the oldest of its die. -/
def State.oldestRequest (s : State) (n stamp : Nat) : Bool :=
  s.parts.all (fun x =>
    match x.2.mu with
    | .requested t => !(decide (x.1 / 512 = n / 512) && (decide (t < stamp) || (decide (t = stamp) && decide (x.1 < n))))
    | _ => true)

/-- MU_LEAVE_IDLE_START: at most 64 units of a die in any 100 cycles, and no more than MUCAP out of idle. -/
def execMuLeaveIdleStart (s : State) : Host.Outcome State Fault Refusal :=
  let s1 := { s with input := .none }
  match s.input with
  | .one n =>
    let p := s.part n
    let die := n / 512
    match p.mu with
    | .requested stamp =>
      let recent := (Assoc.get [] s.wakes die).filter (fun t => decide (s.clock < t + 100))
      if s.oldestRequest n stamp && decide (recent.length < 64) && decide (s.muOut die < s.mucap die) then
        .next { s1.setPart n { p with mu := .waking s.clock } with wakes := Assoc.set [] s.wakes die (recent ++ [s.clock]) }
      else .next s1
    | _ => .next s1
  | _ => .next s1

/-- MU_LEAVE_IDLE_DONE, 32 cycles after it began. -/
def execMuLeaveIdleDone (s : State) : Host.Outcome State Fault Refusal :=
  let s1 := { s with input := .none }
  match s.input with
  | .one n =>
    let p := s.part n
    match p.mu with
    | .waking t => if t + 32 ≤ s.clock then .next (s1.setPart n { p with mu := .awake, muLast := s.clock }) else .next s1
    | _ => .next s1
  | _ => .next s1

/-- MU_HANG_RESET of a partition whose operation has completed no micro-tile for 65,536 cycles: a failure of KIND 0x10 is left pending
and the destination's elements in unfinished micro-tiles are undefined (10 R236).
DEDUCED: log 60. -/
def execMuHangReset (s : State) : Host.Outcome State Fault Refusal :=
  let s1 := { s with input := .none }
  match s.input with
  | .one n =>
    match s.muHolder n with
    | some (key, g, o) =>
      if o.progress + 65536 ≤ (s.part n).cycle then
        let g1 := match o.dest with
          | some (z, _) => (List.range 4096).foldl (fun g e =>
              if g.tileOpen (4 * (e / 64 / 16) + e % 64 / 16) then g.setTile z (e / 64) (e % 64) (Config.freeWord s.fresh (4096 + e)) else g) g
          | none => g
        let s2 := s1.matrixFail key g1 o (if o.dest.isSome then g.nextTile else 0) { kind := 0x10 }
        .next (s2.setPart n { s2.part n with mu := .resetting s.clock })
      else .next s1
    | none => .next s1
  | _ => .next s1

/-- MU_RESET_END. -/
def execMuResetEnd (s : State) : Host.Outcome State Fault Refusal :=
  let s1 := { s with input := .none }
  match s.input with
  | .one n =>
    match (s.part n).mu with
    | .resetting _ => .next (s1.setPart n { s1.part n with mu := .awake, muLast := s.clock })
    | _ => .next s1
  | _ => .next s1

end Sys2Proof.Machine
end

