-- ==== Sys2Proof/Machine/Memory.lean ====
section
/-! DEFINITION. Memory operations taking effect: accesses at their home slices or sent to other chips (09 R192 to R197; 12 R268 to R276),
the return of their results (10 R229, 12 R270, R271), and the completion of MCAS, ALLOC and FREE (08 R186 to R188; 11 R263). -/

namespace Sys2Proof.Machine

/-! ### Results (17 R412, R413; 18 R467; 12 R271) -/

/-- The `n` result bytes of a lane from byte `j`. -/
def MemOp.bytes (o : MemOp) (l j n : Nat) : Nat := leNat ((List.range n).map (fun i => Assoc.get 0 o.got (16 * l + j + i)))

/-- The value of the `r`-th destination register of lane `l`. -/
def MemOp.value (o : MemOp) (size : Nat) (signed : Bool) (l r : Nat) : Word :=
  let n := min size 4
  let x := o.bytes l (4 * r) n
  if signed && decide (2 ^ (8 * n - 1) ≤ x) then w32 (x + 2 ^ 32 - 2 ^ (8 * n)) else w32 x

/-- A group with a destination register freed of its operation. -/
def Group.free (g : Group) (r : Reg) : Group :=
  { g with busy := g.busy.filter (fun x => decide (x ≠ r)), hazards := g.hazards.filter (fun h => decide (h.reg ≠ r)) }

/-- A lane line receives the result of a variable-latency instruction: with poisoned data the whole line is undefined and marked. -/
def Group.landLine (g : Group) (fresh n : Nat) (act : Mask) (x : Lanes Word) (poisoned : Bool) : Group :=
  { g with
    busy := g.busy.filter (fun x => decide (x ≠ .v n))
    hazards := g.hazards.filter (fun h => decide (h.reg ≠ .v n))
    ltags := Assoc.set 0 g.ltags n (tRAW.zeroExtend 8)
    absent := if act = BitVec.allOnes 32 then g.absent &&& ~~~(BitVec.ofNat 256 (2 ^ (n % 256))) else g.absent
    lines := Assoc.set (Lanes.fill 0) g.lines (n % 256)
      (if poisoned then Lanes.ofFn (fun l => Config.freeWord fresh (32 * n + l.val)) else mergeLanesOf act x (g.line n))
    frec :=
      if poisoned then { g.frec with ppoisv := BitVec.ofNat 64 (setBits g.frec.ppoisv.toNat (n - g.lbase) 1 1) }
      else if act = BitVec.allOnes 32 then g.frec.cleanV (n - g.lbase) else g.frec
    imgPoison := if !poisoned && decide (act = BitVec.allOnes 32) then (g.cleanImage (lineOffset n) 128).imgPoison else g.imgPoison }

/-- A uniform register receives a result. -/
def Group.landUniform (g : Group) (fresh n : Nat) (x : Word) (poisoned : Bool) : Group :=
  { g with
    busy := g.busy.filter (fun x => decide (x ≠ .k n))
    hazards := g.hazards.filter (fun h => decide (h.reg ≠ .k n))
    k := g.k.setIfInBounds n (if poisoned then Config.freeWord fresh n else x)
    frec :=
      if poisoned then { g.frec with ppoisk := w32 (setBits g.frec.ppoisk.toNat n 1 1) } else g.frec.cleanK n }

/-- A group with an operation's results written.
DEDUCED: log 30. -/
def Group.land (g : Group) (fresh : Nat) (o : MemOp) : Group :=
  match o.dest with
  | .none => g
  | .lanes size signed lines act =>
    lines.zipIdx.foldl (fun g x =>
      g.landLine fresh x.1 act (Lanes.ofFn (fun l => o.value size signed l.val x.2)) o.poisoned) g
  | .uniform size ks => ks.zipIdx.foldl (fun g x => g.landUniform fresh x.1 (o.value size false 0 x.2) o.poisoned) g

/-- A group suspended on a remote operation becomes ready. -/
def Group.resumeRemote (g : Group) (id now clock : Nat) : Group :=
  if g.wait = .remote id then { g.unwait with readyAt := max g.readyAt (now + 1), readySince := clock } else g

/-- The registers that an operation holds busy. -/
def Dest.regs : Dest → List Reg
  | .none => []
  | .lanes _ _ lines _ => lines.map Reg.v
  | .uniform _ ks => ks.map Reg.k

/-- A program counter from a PCword with the overlay in the low byte. -/
def pcOfLow (w : BitVec 22) : Pc := ⟨BitVec.ofNat 8 w.toNat, BitVec.ofNat 14 (w.toNat / 256), false⟩

/-- An operation answered with errors stops its suspended group exactly before the instruction (12 R271).
DEDUCED: log 29. -/
def State.remoteStop (s : State) (g : Group) (o : MemOp) (t : Trap) : State :=
  let g1 := (o.dest.regs.foldl Group.free g).jump g.lastSlot (pcOfLow o.pcword)
  let t1 := match o.dest with | .uniform _ _ => { t with lanes := 0 } | _ => t
  groupStop (s.setGroup o.group g1) o.group g.lastSlot (pcOfLow o.pcword) t1

/-- An operation ends: its results are written, its group becomes ready if it waits for it, or its errors stop the group. -/
def State.deliver (s : State) (id : Nat) (o : MemOp) : State :=
  let s1 := { s with ops := Assoc.del id s.ops, fresh := s.fresh + b2n o.poisoned }
  match Assoc.find o.group s.groups with
  | none => s1
  | some g =>
    match mergeLanes o.errs with
    | some t => s1.remoteStop g o t
    | none => s1.setGroup o.group ((g.land s.fresh o).resumeRemote id (s.now g) s.clock)

/-- Whether all of an operation's accesses have been made and answered. -/
def MemOp.finished (o : MemOp) : Bool := o.accs.isEmpty && o.sent.isEmpty

/-- Keeps an operation, or ends it when nothing of it remains; the return of a local load's data is a step of its own. -/
def State.keepOp (s : State) (id : Nat) (o : MemOp) (deliverNow : Bool) : State :=
  if o.finished && (deliverNow || decide (o.dest = .none)) then { s with ops := Assoc.put id o s.ops }.deliver id o
  else { s with ops := Assoc.put id o s.ops }

/-! ### Accesses at their home slices -/

/-- A read access of local memory, of its bytes as they stood after a moment. -/
def State.readAccess (s : State) (o : MemOp) (cells : List (Nat × Nat)) (t : Nat) : MemOp :=
  { o with
    got := cells.foldl (fun x c => Assoc.set 0 x c.2 (s.pastByte c.1 t)) o.got
    poisoned := o.poisoned || cells.any (fun c => s.poisoned c.1) }

/-- The moment from which a load of a group's operation reads some bytes: what binds the lanes that issued it, the latest move of memory
contents, the latest change of its translations and, for an acquire, its group's releases before it (09 R197 row 4, R202, R203). -/
def State.loadFloor (s : State) (g : Group) (o : MemOp) (as : List Nat) : Nat :=
  max (max (max (s.floorOf g.order o.owner as) s.base) (if g.role = .vector then as.foldl (fun t a => max t (Assoc.get 0 s.cleared (a / 256))) 0 else 0))
    (max o.since (if wideScope o.acquire then laneMax g.order.released o.owner else 0))

/-- The messages that an acquire of an operation takes of those that its load returned: those of stores for its own scope, and those of fences
for that of a FENCE behind it. -/
def MemOp.taken (o : MemOp) (b : Party) (ms : List Message) : List Message :=
  ms.filter (fun m =>
    (match o.acquire with | some sc => !m.fence && m.reaches b sc.toNat | none => false) ||
    (match o.fence with | some sc => m.fence && m.reaches b sc.toNat | none => false))

/-- Whether a load of an operation may return what stood after moment `r`: it acquires nothing that later stores of its lanes, which have
taken effect, should have followed (09 R202). -/
def State.mayReturn (s : State) (g : Group) (o : MemOp) (as : List Nat) (r : Nat) : Bool :=
  o.passed.isEmpty || (o.taken (s.partyOf g) (s.messagesOf as r)).all (fun m => !s.conflicts o.passed m)

/-- A group after a load of its operation whose position is moment `t` and which returned what stood after moment `r`. -/
def State.seeLoad (s : State) (g : Group) (o : MemOp) (as : List Nat) (t r : Nat) : Group :=
  let g1 := { g with order := g.order.see o.owner as t false }
  let ms := s.messagesOf as r
  let g2 := { g1 with order := { g1.order with
    heard := ((ms.filter (fun m => m.fence)).map (fun m => (m.id, o.owner))).filter (fun x => !g1.order.heard.contains x) ++ g1.order.heard } }
  let g3 := match o.acquire with
    | some sc => s.acquires g2 o.owner o.po sc.toNat t ms
    | none => g2
  match o.fence with
  | some sc => g3.takeAll (s.partyOf g) o.owner o.po sc.toNat (ms.filter (fun m => m.fence))
  | none => g3

/-- What a load of an operation of a group, at position `t`, acquires for those that hold it as a debt. -/
def State.settleLoad (s : State) (id : Nat) (g : Group) (o : MemOp) (as : List Nat) (t r : Nat) : State :=
  match o.acquire with
  | some sc =>
    let ms := o.taken (s.partyOf g) (s.messagesOf as r)
    (s.settleDebt id as t false).settleAcquire id t (decide (4 ≤ sc.toNat) || ms.any (fun m => m.agent.isNone)) ms
  | none => s.settleDebt id as t false

/-- A group after a store of its operation to some bytes at the present moment. -/
def State.seeStore (s : State) (g : Group) (o : MemOp) (as : List Nat) : Group :=
  let ord := g.order.see o.owner as s.tick true
  let ord1 := if o.po < laneMax ord.fencer o.owner then ord.raise o.owner 5 s.tick else ord
  { g with order := if wideScope o.release && decide (o.acquire = none) then { ord1 with released := laneRaise ord1.released o.owner s.tick } else ord1 }

/-- The open operations of narrow acquires that a store of some bytes passes note it (09 R197 row 2). -/
def State.passOpen (s : State) (o : MemOp) (as : List Nat) : State :=
  { s with ops := s.ops.map (fun e : Nat × MemOp =>
      if e.2.acquiring.isSome && e.2.open_ && e.2.before o then
        (e.1, { e.2 with passed := (runs as).map (fun r => { lo := r.1, len := r.2, time := s.tick, store := true }) ++ e.2.passed })
      else e) }

/-- The state after an operation's store to some bytes: whoever held it as a debt has seen it, and it carries what stood before it. -/
def State.stored (s : State) (id : Nat) (o : MemOp) (as : List Nat) : State :=
  let s1 := (s.settleDebt id as s.tick true).passOpen o as
  match Assoc.find o.group s1.groups with
  | some g =>
    let g1 := s1.seeStore g o as
    (s1.setGroup o.group g1).tellStore o.group g1 o.owner o.po as (o.release.map (fun x => x.toNat)) o.flagged
  | none => s1

/-- A read-modify-write of `n` bytes at a flat address: the state and the old value (08 R183, 09 R204). -/
def State.rmw (s : State) (flat n : Nat) (op : Rmw) (pcword : BitVec 22) : State × Nat :=
  let old := s.nat flat n
  match op.new n pcword old with
  | some x => (s.softwareStore (cellsOf flat n x) true, old)
  | none => (s, old)

/-- Whether an access may take effect: earlier accesses that the local order keeps before it have, and those that its group acquired on the
same bytes (all of them for a release that goes to another chip); no shackle holds a line that it writes; it writes nothing that its
group's earlier matrix instruction has still to read; its slice serves (07 R157, R158; 09 R197, R202; 13 R308).
DEDUCED: log 45. -/
def State.accessReady (s : State) (id : Nat) (o : MemOp) (a : Access) : Bool :=
  s.ops.all (fun e => decide (e.1 = id) || !keptBefore e.2 o a) &&
  (match Assoc.find o.group s.groups with
   | some g => s.debtsPaid g o.owner o.po (if a.chip.isSome && o.release.isSome then none else some a.addrs)
   | none => true) &&
  (!a.writes || a.chip.isSome || a.addrs.all (fun x => !s.shackled x)) &&
  (!a.writes || a.chip.isSome ||
    (match Assoc.find o.group s.groups with
     | some g => (match g.matrixOp with | some m => decide (o.po < m.po) || a.addrs.all (fun x => !g.stillReads m x) | none => true)
     | none => true)) &&
  (a.chip.isSome || a.addrs.all (fun x => !s.homeWaits x))

/-- An access takes effect in this module's memory. -/
def State.localEffect (s : State) (id : Nat) (o : MemOp) (acc : Nat) (a : Access) : State :=
  let o1 := { o with accs := Assoc.del acc o.accs }
  match a.kind with
  | .read cells =>
    (match Assoc.find o.group s.groups with
     | some g =>
       let floor := s.loadFloor g o a.addrs
       let r := s.readMoment a.addrs floor acc (s.mayReturn g o a.addrs)
       let t := s.loadAt a.addrs floor r
       (((({ s with fresh := s.fresh + 1 }.setGroup o.group (s.seeLoad g o a.addrs t r)).settleLoad id g o a.addrs t r).noteRead a.addrs r).keepOp id
         (s.readAccess o1 cells r) false)
     | none => s.keepOp id (s.readAccess o1 cells s.tick) false)
  | .write cells =>
    let s1 := (s.softwareStore cells).stored id o a.addrs
    (if o1.accs.isEmpty then s1.clearMarks (o1.whole.filter (fun ln => decide (2 ^ 44 ≤ ln))) else s1).keepOp id o1 false
  | .rmw addr size slot op =>
    let r := s.rmw addr size op o.pcword
    let o2 := { o1 with
      got := (cellsOf slot size r.2).foldl (fun t c => Assoc.set 0 t c.1 c.2) o1.got
      poisoned := o1.poisoned || s.poisoned addr }
    let s1 := match Assoc.find o.group r.1.groups with
      | some g => ((r.1.setGroup o.group (s.seeLoad g o a.addrs s.tick s.tick)).settleLoad id g o a.addrs s.tick s.tick).noteRead a.addrs s.tick
      | none => r.1
    (if (op.new size o.pcword r.2).isSome then s1.stored id o a.addrs else s1).keepOp id o2 true

/-! ### Accesses to other chips (12 R265 to R276) -/

/-- The plane that PLANEMAP gives an index. -/
def State.planeOf (s : State) (index : Nat) : Nat := bitsOf (s.ctlNat .fabric 4 4) (3 * index) 3

/-- Whether an access is a store. -/
def AccessKind.isStore : AccessKind → Bool
  | .write _ => true
  | _ => false

/-- Whether an access has write intent. -/
def AccessKind.writes : AccessKind → Bool
  | .read _ => false
  | _ => true

/-- The lanes that an access serves. -/
def Access.served (a : Access) : List Nat :=
  match a.kind with
  | .read cells => (cells.map (fun c => c.2 / 16)).eraseDups
  | .write _ => lanesOf a.lanes
  | .rmw _ _ slot _ => [slot / 16]

/-- The pod-window address of an offset on a chip. -/
def podVa (chip off : Nat) : Nat := 0x00FA000000000000 + chip * 2 ^ 41 + off

/-- The request of an access, with its next link sequence number. -/
def State.requestOf (s : State) (g : Group) (op acc : Nat) (o : MemOp) (chip : Nat) (kind : AccessKind) (flagged : Option Nat) : Request :=
  { src := s.chipId, dst := chip, core := g.core, frame := g.frame, job := g.job, role := g.role, keymask := g.keymask
    scope := ((o.release.getD (o.acquire.getD 0))).toNat, pcword := o.pcword, access := kind, flagged := flagged
    plane := s.planeOf (planeIndex kind.first), seq := Assoc.get 0 s.linkSeq chip, op := op, acc := acc }

/-- Sends a request: it stays in the retransmission buffer until it is answered (12 R286). -/
def State.sendRequest (s : State) (r : Request) : State :=
  { s with
    flight := s.flight ++ [r]
    linkSeq := Assoc.set 0 s.linkSeq r.dst (r.seq + 1) }.emit r.dst [(r.plane, .request r)]

/-! ### Tickets known at this chip (12 R280 to R284) -/

/-- The ticket that this chip knows for a page of an owner, open or closed with some of its chains left (12 R281). -/
def State.knownTicket (s : State) (owner page : Nat) : Option KnownTicket :=
  s.known.find? (fun t => decide (t.owner = owner) && decide (t.page = page))

/-- The known ticket with a serial. -/
def State.knownSerial (s : State) (n : Nat) : Option KnownTicket := s.known.find? (fun t => decide (t.serial = n))

/-- Whether every notice of a known ticket has arrived. -/
def KnownTicket.closed (t : KnownTicket) : Bool := decide (t.notices.length = 8)

/-- The entries of a ticket in a core's table. -/
def State.chain (s : State) (core serial : Nat) : List (Nat × TicketEntry) :=
  s.rtkt.filter (fun x => decide (x.1 / 32 = core) && decide (x.2.serial = serial))

/-- The refused accesses of a ticket that wait for a core's table. -/
def State.heldOf (s : State) (core serial : Nat) : List HeldTicket :=
  s.heldTickets.filter (fun h => decide (h.core = core) && decide (h.serial = serial))

/-- Whether a refused access waits for a core's ticket table: later ones then wait behind it (12 R281). -/
def State.holdsTickets (s : State) (core : Nat) : Bool := s.heldTickets.any (fun h => decide (h.core = core))

/-- The ticket whose chain a new access of a core to a page joins: a closed one that the core has not replayed to the end, else the open
one (12 R281). -/
def State.joined (s : State) (core owner page : Nat) : Option KnownTicket :=
  let ks := s.known.filter (fun t => decide (t.owner = owner) && decide (t.page = page))
  match ks.find? (fun t => t.closed && (!(s.chain core t.serial).isEmpty || !(s.heldOf core t.serial).isEmpty)) with
  | some t => some t
  | none => ks.find? (fun t => !t.closed)

/-- A free entry of a core's ticket table. -/
def State.freeRtkt (s : State) (core : Nat) : Option Nat :=
  ((List.range 32).map (fun e => 32 * core + e)).find? (fun e => (Assoc.find e s.rtkt).isNone)

/-- The next position in a ticket's chain at a core. -/
def State.nextOrder (s : State) (core serial : Nat) : Nat := (s.chain core serial).foldl (fun m x => max m (x.2.order + 1)) 0

/-- The head of a chain. -/
def chainHead (xs : List (Nat × TicketEntry)) : Option (Nat × TicketEntry) :=
  xs.foldl (fun (o : Option (Nat × TicketEntry)) x =>
    match o with
    | some y => if x.2.order < y.2.order then some x else o
    | none => some x) none

/-- Sends the access of a ticket table entry again, a flagged store behind the marker set of its instruction; it waits while its plane
index changes planes (12 R276, R282, R285).
DEDUCED: log 78. -/
def State.resend (s : State) (e : Nat) (t : TicketEntry) : State :=
  match Assoc.find t.op s.ops, t.access.chip with
  | some o, some ch =>
    (match Assoc.find o.group s.groups with
     | some g =>
       if (Assoc.find (planeIndex t.access.kind.first) s.planeNow).isSome then s
       else { s with rtkt := Assoc.put e { t with state := 2 } s.rtkt }.sendRequest
         (s.requestOf g t.op t.acc o ch t.access.kind (if o.flagged then Assoc.find ch o.sets else none))
     | none => s)
  | _, _ => s

/-- The chain of a ticket closed as served moves on at a core: its head is replayed unless it is already, or waits for an access to the same
bytes whose replay met a newer ticket.
DEDUCED: log 78. -/
def State.advanceChain (s : State) (core serial : Nat) : State :=
  match s.knownSerial serial, chainHead (s.chain core serial) with
  | some k, some (e, t) =>
    if k.closed && decide (k.status = 0) && decide (t.state = 1) &&
        s.rtkt.all (fun x => !(decide (x.1 / 32 = core) && decide (serial < x.2.serial) && x.2.access.overlaps t.access)) then s.resend e t
    else s
  | _, _ => s

/-- Every chain moves on that may. -/
def State.advanceChains (s : State) : State := s.rtkt.foldl (fun s x => s.advanceChain (x.1 / 32) x.2.serial) s

/-- Closed tickets with nothing left of their chains are forgotten. -/
def State.forgetTickets (s : State) : State :=
  { s with known := s.known.filter (fun t => !t.closed || s.rtkt.any (fun x => decide (x.2.serial = t.serial)) ||
      s.heldTickets.any (fun h => decide (h.serial = t.serial))) }

/-- An entry of a ticket table is free, and TICKETS of its group falls (12 R282). -/
def State.releaseEntry (s : State) (e : Nat) (t : TicketEntry) : State :=
  let s1 := { s with rtkt := Assoc.del e s.rtkt }
  match Assoc.find t.op s.ops with
  | some o => s1.mapGroup o.group (fun g => { g with tickets := g.tickets - 1 })
  | none => s1

/-- An entry's access has been answered or given up: the entry is free and the chains move on. -/
def State.freeEntry (s : State) (e : Nat) (t : TicketEntry) : State := (s.releaseEntry e t).advanceChains.forgetTickets

/-- An access that waits for a ticket is given up by CANCEL (12 R284): a store fails with KIND 0x11. -/
def State.dropTicket (s : State) (e : Nat) (t : TicketEntry) : State :=
  match Assoc.find t.op s.ops with
  | some o =>
    let s1 := (s.freeEntry e t).mapGroup o.group (fun g =>
      if t.access.kind.isStore then (g.ackDown t.access.kind.first).addFailure .remote { kind := 0x11 } o.pcword else g)
    s1.keepOp t.op { o with sent := Assoc.del t.acc o.sent } true
  | none => s.freeEntry e t

/-- Enters an access of an operation in a core's ticket table, where there is room: TICKETS of its group rises (12 R281). A cancelled group
gives it up. -/
def State.enterTicket (s : State) (e op acc : Nat) (o : MemOp) (a : Access) (t : KnownTicket) : State :=
  let entry : TicketEntry :=
    { state := 1, op := op, acc := acc, access := a, owner := t.owner, number := t.number, serial := t.serial, hint := t.hint
      order := s.nextOrder (e / 32) t.serial }
  let s1 := { s with
    rtkt := Assoc.put e entry s.rtkt
    ops := Assoc.put op { o with accs := Assoc.del acc o.accs, sent := Assoc.put acc a o.sent } s.ops }.mapGroup o.group
      (fun g => { g with tickets := g.tickets + 1 })
  match Assoc.find o.group s.groups with
  | some g => if g.cancelled then s1.dropTicket e entry else s1
  | none => s1

/-! ### Sending -/

/-- Whether a group has a refused access, in a ticket table or waiting for one, other than those of one operation. -/
def State.otherTickets (s : State) (group id : Nat) : Bool :=
  let mine (op : Nat) : Bool := decide (op ≠ id) && (match Assoc.find op s.ops with | some o => decide (o.group = group) | none => false)
  s.rtkt.any (fun x => mine x.2.op) || s.heldTickets.any (fun h => mine h.op)

/-- Whether an operation waits for its group's tickets: an ordered flag, or a release at pod scope (09 R206, 12 R283). -/
def State.ticketsBlock (s : State) (id : Nat) (o : MemOp) : Bool :=
  (o.flagged || decide (o.release = some 5)) && s.otherTickets o.group id

/-- Flagged stores from this chip to `chip` that await acknowledgement, those that a ticket refused among them (12 R276). -/
def State.flaggedTo (s : State) (chip : Nat) : Nat :=
  s.ops.foldl (fun n o => if o.2.flagged then n + o.2.sent.countP (fun x => decide (x.2.chip = some chip)) else n) 0

/-- Whether an access to another chip may be sent: an ordered-flag store or a release at pod scope waits for the group's tickets, a
flagged store also for a free place and for the group's earlier stores to the chip, and a changed plane index for the change
(09 R206; 12 R274, R276, R285). -/
def State.sendReady (s : State) (id : Nat) (o : MemOp) (chip : Nat) (a : Access) : Bool :=
  !s.ticketsBlock id o &&
  (!o.flagged || (decide (s.flaggedTo chip < 4) &&
    s.ops.all (fun e => !(e.2.before o && e.2.accs.any (fun x => decide (x.2.chip = some chip) && x.2.writes))))) &&
  (Assoc.find (planeIndex a.kind.first) s.planeNow).isNone

/-- An access whose chip has left the pod before it was sent (12 R287). A flagged store has not been counted yet. -/
def State.accessLost (s : State) (id : Nat) (o : MemOp) (acc : Nat) (a : Access) : State :=
  let o1 := { o with accs := Assoc.del acc o.accs, sent := Assoc.del acc o.sent, poisoned := o.poisoned || !a.kind.isStore }
  let t : Trap := { kind := 0x0F, write := true, addr := podVa (a.chip.getD 0) a.kind.first }
  let s1 := if a.kind.isStore then s.mapGroup o.group (fun g =>
    (if o.flagged then g else g.ackDown a.kind.first).addFailure .remote t o.pcword) else s
  s1.keepOp id o1 true

/-- A flagged store of an operation leaves for a chip: it is counted, and the instruction's marker set goes before its first one (12 R276,
18 R458). Answers the operation with the set's number. -/
def State.markSet (s : State) (o : MemOp) (chip : Nat) (a : Access) : State × MemOp :=
  let s1 := s.mapGroup o.group (fun g => g.ackUp a.kind.first)
  match Assoc.find chip o.sets with
  | some _ => (s1, o)
  | none => (s1.sendMarkers chip false, { o with sets := Assoc.put chip (s.nextMarker chip) o.sets })

/-- An access leaves for another chip: it joins the chain of a known ticket of its page, or is sent. A flagged store goes behind the marker
set of its instruction, and joins a chain only once nothing else of this chip is out to the owner: as if it had been refused, which is after
everything before its set has been answered.
DEDUCED: log 78. -/
def State.remoteEffect (s : State) (id : Nat) (o : MemOp) (acc chip : Nat) (a : Access) : State :=
  match Assoc.find o.group s.groups with
  | none => s
  | some g =>
    if !s.member chip then s.accessLost id o acc a
    else
      match s.joined g.core chip (a.kind.first / 2 ^ 16) with
      | some t =>
        (match s.freeRtkt g.core with
         | some e =>
           if s.holdsTickets g.core || (o.flagged && s.flight.any (fun r => decide (r.dst = chip))) then s
           else
             let x := if o.flagged then s.markSet o chip a else (s, o)
             x.1.enterTicket e id acc x.2 a t
         | none => s)
      | none =>
        let x := if o.flagged then s.markSet o chip a else (s, o)
        let o1 := { x.2 with accs := Assoc.del acc o.accs, sent := Assoc.put acc a o.sent }
        { x.1 with ops := Assoc.put id o1 s.ops }.sendRequest
          (x.1.requestOf g id acc o chip a.kind (if o.flagged then Assoc.find chip x.2.sets else none))

/-- The operation with a number, and one of its accesses.
DESIGN CHOICE: log 10. -/
def State.access (s : State) (id acc : Nat) : Option (MemOp × Access) :=
  match Assoc.find id s.ops with
  | some o => (Assoc.find acc o.accs).map (fun a => (o, a))
  | none => none

/-- One access of a memory operation takes effect, if it may. -/
def State.memoryEffect (s : State) (id acc : Nat) : State :=
  match s.access id acc with
  | some (o, a) =>
    if s.accessReady id o a then
      match a.chip with
      | none => if s.ticketsBlock id o then s else s.localEffect id o acc a
      | some ch => if s.sendReady id o ch a || !s.member ch then s.remoteEffect id o acc ch a else s
    else s
  | none => s

/-- LOAD_DATA_RETURN of an operation all of whose accesses have been made: the loaded values are written (17 R413). -/
def execLoadDataReturn (s : State) : Host.Outcome State Fault Refusal :=
  let s1 := { s with input := .none }
  match s.input with
  | .one id =>
    match Assoc.find id s.ops with
    | some o => if o.finished then .next (s1.deliver id o) else .next s1
    | none => .next s1
  | _ => .next s1

/-! ### MCAS (08 R186, R188) -/

/-- A group whose operation under locks has completed: `kD` takes the result and the instruction is over. -/
def State.locksDone (s : State) (id : Nat) (l : Lock) (results : List (Nat × Word)) : State :=
  match Assoc.find l.group s.groups with
  | none => { s with locks := Assoc.del id s.locks }
  | some g =>
    let st := match g.wait with | .locks _ st => st | _ => 0
    let g1 := (results.foldl (fun g r => g.landK r.1 r.2) g).advance l.slot
    { s with locks := Assoc.del id s.locks }.setGroup l.group { g1 with wait := .none, readyAt := s.now g + 1 + st, readySince := s.clock }

/-- An operation under locks stops its group exactly before the instruction; every lock is released. -/
def State.locksFault (s : State) (id : Nat) (l : Lock) (t : Trap) : State :=
  groupStop { s with locks := Assoc.del id s.locks } l.group l.slot l.pc t

/-- A group whose operation under locks has read and perhaps stored some bytes at the present moment: an acquire at its scope. -/
def State.acquireLocked (s : State) (l : Lock) (scope : Nat) (as : List Nat) (wrote : Bool) : State :=
  match Assoc.find l.group s.groups with
  | some g =>
    let m := (g.live l.slot).mask
    s.setGroup l.group (s.acquires { g with order := g.order.see m as s.tick wrote } m g.po scope s.tick (s.messagesOf as s.tick))
  | none => s

/-- The same operation's stores carry what stands before them: a release at its scope. -/
def State.releaseLocked (s : State) (l : Lock) (scope : Nat) (as : List Nat) : State :=
  match Assoc.find l.group s.groups with
  | some g => s.tellStore l.group g (g.live l.slot).mask g.po as (some scope) false
  | none => s

/-- Whether the matrix instruction that an operation's group has in flight has still to read bytes that the operation stores (07 R158). -/
def State.lockReads (s : State) (l : Lock) (flats : List Nat) : Bool :=
  match Assoc.find l.group s.groups with | some g => g.readsStill flats | none => false

/-- An MCAS whose translations were invalidated restarts at step 2 (08 R188): its entries are translated and checked again. -/
def State.restartMcas (s : State) (id : Nat) (l : Lock) (kd scope : Nat) (entries : List (Nat × Nat × Nat)) : State :=
  match Assoc.find l.group s.groups with
  | none => s
  | some g =>
    let xs := s.mcasChecked g l.vas
    match worst (s.entryTraps xs), heldBy xs with
    | some t, _ => s.locksFault id l t
    | none, some _ => s
    | none, none =>
      let s1 := xs.foldl (fun s x =>
        match x.place with | .here _ (some f) => s.useTranslation g.core g.job (transVa x.va) true f | _ => s) s
      let flats := xs.map (fun x => match x.place with | .here flat _ => flat | _ => 0)
      let l1 : Lock := { l with restart := false, op := .mcas kd scope (entries.mapIdx (fun e x => (flats.getD e 0, x.2))) }
      { s1 with locks := Assoc.put id l1 s1.locks }

/-- The result word of an MCAS whose entries hold the given mismatches. -/
def mcasResult (mismatch : List Bool) : Word :=
  if mismatch.all (fun b => !b) then 1
  else w32 ((mismatch.mapIdx (fun e b => b2n b * 2 ^ (8 + e))).foldl (· + ·) 0)

/-- MCAS_LOCKS_COMPLETE: with every line locked, the words are compared, and all new values or none are written, as one access; an entry in a
poisoned sector stops the group with nothing written (10 R229). A write waits while a line is shackled. -/
def execMcasLocksComplete (s : State) : Host.Outcome State Fault Refusal :=
  let s1 := { s with input := .none }
  match s.input with
  | .one id =>
    match Assoc.find id s.locks with
    | some l =>
      match l.op with
      | .mcas kd scope entries =>
        let as := entries.flatMap (fun e => addrsFrom e.1 8)
        let mismatch := entries.map (fun e => decide (s.nat e.1 8 ≠ e.2.1))
        if l.restart then .next (s1.restartMcas id l kd scope entries)
        else if entries.any (fun e => s.homeWaits e.1) then .next s1
        else if let some va := (entries.mapIdx (fun e x => (l.vas.getD e 0, x.1))).findSome? (fun x => if s.poisoned x.2 then some x.1 else none) then
          .next (s1.locksFault id l (poisonAt va true))
        else if mismatch.all (fun b => !b) then
          if entries.any (fun e => s.shackled e.1) || s.lockReads l as then .next s1
          else
            let s2 := entries.foldl (fun s e => s.softwareStore (cellsOf e.1 8 e.2.2) true) (s1.acquireLocked l scope as true)
            .next ((s2.releaseLocked l scope as).locksDone id l [(kd, mcasResult mismatch)])
        else .next ((s1.acquireLocked l scope as false).locksDone id l [(kd, mcasResult mismatch)])
      | _ => .next s1
    | none => .next s1
  | _ => .next s1

/-! ### The heap (11 R262, R263) -/

/-- The fields of a heap descriptor at a flat address. -/
def State.heapBase (s : State) (pa : Nat) : Nat := s.nat pa 8
def State.heapLimit (s : State) (pa : Nat) : Nat := s.nat (pa + 8) 8
def State.heapBump (s : State) (pa : Nat) : Nat := s.nat (pa + 0x10) 8
def State.heapFree (s : State) (pa c : Nat) : Nat := s.nat (pa + 0x18 + 8 * c) 8

/-- Whether a descriptor is invalid: BASE, LIMIT or BUMP unaligned or out of order. -/
def State.heapBad (s : State) (pa : Nat) : Bool :=
  decide (s.heapBase pa % 256 ≠ 0) || decide (s.heapLimit pa % 256 ≠ 0) || decide (s.heapBump pa % 256 ≠ 0) ||
  decide (s.heapLimit pa ≤ s.heapBase pa) || decide (s.heapBump pa < s.heapBase pa) || decide (s.heapLimit pa < s.heapBump pa)

/-- The smallest class whose blocks hold `n` bytes. -/
def heapClass (n : Nat) : Nat := ((List.range 9).find? (fun c => decide (n ≤ 256 * 2 ^ c))).getD 8

/-- The result pair of ALLOC. -/
def allocResult (kd addr cls status : Nat) : List (Nat × Word) :=
  let x := addr % 2 ^ 56 + 2 ^ 56 * cls + 2 ^ 60 * status
  [(kd, w32 x), (kd + 1, w32 (x / 2 ^ 32))]

/-- The place of a link word for a group: global memory, with the intent of the access. -/
def State.linkPlace (s : State) (g : Group) (va : Nat) (write : Bool) : Place :=
  if va % 8 ≠ 0 then .fault (misaligned va write)
  else
    match (if va ≥ 2 ^ 56 then Window.reserved else windowOf va) with
    | .global => s.place g none va write
    | .pod c _ => if c = s.chipId then s.place g none va write else .fault (windowFault va write)
    | _ => .fault (windowFault va write)

/-- ALLOC under its descriptor's lock. -/
def State.allocStep (s : State) (id : Nat) (l : Lock) (g : Group) (kd pa size : Nat) : State :=
  if s.heapBad pa then s.locksDone id l (allocResult kd 0 0 3)
  else if size = 0 ∨ 65536 < size then s.locksDone id l (allocResult kd 0 0 2)
  else
    let c := heapClass size
    let b := s.heapFree pa c
    if b ≠ 0 then
      match s.linkPlace g b false with
      | .here flat f =>
        if s.poisoned flat then s.locksFault id l (poisonAt b false)
        else
          let s1 := (match f with | some x => s.useTranslation g.core g.job (transVa b) false x | none => s).noteSpill g.job (transVa b)
          ((s1.storeNat (pa + 0x18 + 8 * c) 8 (s.nat flat 8) true).releaseLocked l 3 (addrsFrom pa 128)).locksDone id l
            (allocResult kd b c 0)
      | .fault t => s.locksFault id l t
      | _ => s
    else if s.heapBump pa + 256 * 2 ^ c ≤ s.heapLimit pa then
      ((s.storeNat (pa + 0x10) 8 (s.heapBump pa + 256 * 2 ^ c) true).releaseLocked l 3 (addrsFrom pa 128)).locksDone id l
        (allocResult kd (s.heapBump pa) c 0)
    else s.locksDone id l (allocResult kd 0 c 1)

/-- FREE under its descriptor's lock. -/
def State.freeStep (s : State) (id : Nat) (l : Lock) (g : Group) (kd pa x : Nat) : State :=
  let a := bitsOf x 0 56
  let c := bitsOf x 56 4
  if s.heapBad pa then s.locksDone id l [(kd, 3)]
  else if bitsOf x 60 4 ≠ 0 ∨ 8 < c ∨ a < s.heapBase pa ∨ s.heapLimit pa ≤ a ∨ a % 256 ≠ 0 then s.locksDone id l [(kd, 4)]
  else
    match s.linkPlace g a true with
    | .here flat f =>
      if s.poisoned flat then s.locksFault id l (poisonAt a true)
      else
      let s1 := (match f with | some y => s.useTranslation g.core g.job (transVa a) true y | none => s).noteSpill g.job (transVa a)
      let s2 := s1.agentStore (cellsOf flat 8 (s.heapFree pa c))
      ((s2.storeNat (pa + 0x18 + 8 * c) 8 a true).releaseLocked l 3 (addrsFrom pa 128)).locksDone id l [(kd, 0)]
    | .fault t => s.locksFault id l t
    | _ => s

/-- HEAP_DESCRIPTOR_LOCKED: ALLOC or FREE, with its descriptor's line locked and no shackle on a line that it writes. -/
def execHeapDescriptorLocked (s : State) : Host.Outcome State Fault Refusal :=
  let s1 := { s with input := .none }
  match s.input with
  | .one id =>
    match Assoc.find id s.locks with
    | some l =>
      match Assoc.find l.group s.groups with
      | some g =>
        match l.op with
        | .alloc kd pa size =>
          if s.shackled pa || s.homeWaits pa || g.readsStill (addrsFrom pa 128) then .next s1
          else .next ((s1.acquireLocked l 3 (addrsFrom pa 128) true).allocStep id l g kd pa size)
        | .free kd pa x =>
          let busy := match s.linkPlace g (bitsOf x 0 56) true with
            | .here flat _ => s.shackled flat || g.readsStill (addrsFrom flat 8)
            | _ => false
          if s.shackled pa || s.homeWaits pa || g.readsStill (addrsFrom pa 128) || busy then .next s1
          else .next ((s1.acquireLocked l 3 (addrsFrom pa 128) true).freeStep id l g kd pa x)
        | _ => .next s1
      | none => .next s1
    | none => .next s1
  | _ => .next s1

end Sys2Proof.Machine
end

