-- ==== Sys2Proof/Machine/Waitfor.lean ====
section
/-! DEFINITION. The wait-for walk of the management core: detecting and breaking cycles of waits (08 R189 to R191). -/

namespace Sys2Proof.Machine

/-- The phase of a barrier that a wait waits for: that of a blocked arrival is the current one. -/
def State.waitedPhase (s : State) (pa : Nat) : Until → Nat
  | .phase n _ _ => n
  | .arrival _ _ _ => (s.barrier pa).pseq
  | _ => 0

/-- The recorded waits of both dies' tables. -/
def State.recorded (s : State) : List Recorded :=
  s.groups.filterMap (fun x =>
    match x.2.wait with
    | .object _ pa _ false what =>
      some { group := x.1, launchid := x.2.launchid.toNat, unitix := x.2.unitix.toNat, groupix := x.2.groupix.toNat, pa := pa
             va := x.2.waitaddr.toNat, what := what, phase := s.waitedPhase pa what, kind := x.2.waitkind.toNat }
    | _ => none)

/-- The 16 bytes of a record in use (08 R189). -/
def Recorded.bytes (w : Recorded) : List Byte :=
  leBytes 4 w.launchid ++ leBytes 2 w.unitix ++ leBytes 1 w.groupix ++ leBytes 1 1 ++
  leBytes 8 (bitsOf w.va 4 52 + 2 ^ 52 * (w.phase % 256) + 2 ^ 60 * w.kind)

/-- A die's wait-for table as the management core reads it: the records in use. -/
def State.waitTable (s : State) (die : Nat) : List (List Byte) :=
  ((s.recorded.filter (fun w => decide (dieOf (w.group / 192) = die))).map Recorded.bytes)

/-- Whether a placed group is live. -/
def Group.isLive (g : Group) : Bool := !g.ending && !g.cancelled && decide (g.stop ≠ .lost)

/-- The live groups that satisfy a condition. -/
def State.liveGroups (s : State) (f : Group → Bool) : List Nat := (s.groups.filter (fun x => x.2.isLive && f x.2)).map (fun x => x.1)

/-- Whether two groups belong to one co-scheduled set: a cluster, or a unit of a launch without clusters. -/
def State.coscheduled (s : State) (g h : Group) : Bool :=
  decide (g.launchid = h.launchid) &&
  (match s.launchOf g with
   | some l => if l.flags.getLsbD 11 then decide (g.cluix = h.cluix) else decide (g.unitix = h.unitix)
   | none => decide (g.unitix = h.unitix))

/-- The flat address of a counter of a launch. -/
def State.counterFlat (s : State) (l : Launch) (va : Nat) : Option Nat :=
  match s.reach l.job l.keymask va true with | .at f _ => some f | _ => none

/-- The flat address of the counter of a launch's level. -/
def State.levelFlat (s : State) (l : Launch) (level va : Nat) : Option Nat :=
  s.counterFlat (if level ≤ 1 then l else { l with keymask := l.gmask }) va

/-- Whether a group belongs to the level whose counter stands at a flat address. -/
def State.inLevel (s : State) (pa : Nat) (g : Group) : Bool :=
  match s.launchOf g with
  | some l =>
    [(0, l.block + 0x20 + 16 * g.unitix.toNat), (1, l.block), (2, l.ctrs.graph), (3, l.ctrs.phase), (4, l.ctrs.jobc)].any (fun x =>
      decide (s.levelFlat l x.1 x.2 = some pa))
  | none => false

/-- The live groups that can arrive on, publish to, release or complete the object of a wait. -/
def State.actors (s : State) (w : Recorded) : List Nat :=
  match Assoc.find w.group s.groups with
  | none => []
  | some g =>
    match w.what with
    | .counter _ => s.liveGroups (s.inLevel w.pa)
    | _ => if 2 ^ 52 ≤ w.pa then s.liveGroups (s.coscheduled g) else s.liveGroups (fun h => decide (h.job = g.job))

/-- Whether a wait may belong to a cycle by itself at one walk: its object takes no external arrivals, and its group has no engine operation,
remote load, page fault or TRAP call outstanding.
DEDUCED: log 44. -/
def State.idleWait (s : State) (w : Recorded) : Bool :=
  (match w.what with
   | .arrival _ _ _ => decide (bitsOf (s.signal w.pa) 16 2 = 0)
   | .phase _ _ _ => decide (bitsOf (s.signal w.pa) 16 2 = 0)
   | _ => true) &&
  (match Assoc.find w.group s.groups with
   | some g => decide (g.ctrCopy = 0) && decide (g.ctrMatrix = 0) && decide (g.ctrRemote = 0) && decide (g.ctrIo = 0) && g.geoOp.isNone &&
       decide (s.unsentFlags w.group = 0)
   | none => false)

/-- Whether a wait may belong to a cycle by itself: at this walk and at the last, with its object unchanged between them. -/
def State.stuck (s : State) (w : Recorded) : Bool :=
  s.idleWait w && s.walked.any (fun x => decide (x.1 = w)) && !s.touched.contains w.pa

/-- The groups that can act on a wait's object, at this walk or at the last. -/
def State.bothActors (s : State) (w : Recorded) : List Nat :=
  s.actors w ++ (s.walked.filter (fun x => decide (x.1 = w))).flatMap (fun x => x.2)

/-- One round of the greatest fixed point: waits all of whose objects' actors, at both walks, wait in the set. -/
def State.prune (s : State) (ws : List Recorded) : List Recorded :=
  ws.filter (fun w => (s.bothActors w).all (fun k => ws.any (fun v => decide (v.group = k))))

/-- The largest cycle: at most one round for each wait. -/
def State.cycles (s : State) : List Recorded :=
  let ws := s.recorded.filter s.stuck
  (List.range ws.length).foldl (fun t _ => s.prune t) ws

/-- One round of the least closed set around some waits. -/
def State.grow (s : State) (all ws : List Recorded) : List Recorded :=
  all.filter (fun v => ws.contains v || ws.any (fun w => (s.bothActors w).contains v.group))

/-- The least cycle that holds a wait. -/
def State.cycleOf (s : State) (all : List Recorded) (w : Recorded) : List Recorded :=
  (List.range all.length).foldl (fun t _ => s.grow all t) [w]

/-- The cycles that hold no smaller one. -/
def State.leastCycles (s : State) : List (List Recorded) :=
  let all := s.cycles
  (all.filterMap (fun w =>
    let c := s.cycleOf all w
    if c.all (fun v => decide ((s.cycleOf all v).length = c.length)) then some c else none)).eraseDups

/-- The rank of a wait's group in a cycle: its launch's admission, its unit, its index. -/
def State.breakRank (s : State) (w : Recorded) : Nat :=
  match Assoc.find w.group s.groups with
  | some g => ((match s.launchOf g with | some l => l.order | none => 0) * 2 ^ 16 + g.unitix.toNat) * 2 ^ 8 + g.groupix.toNat
  | none => 0

/-- The wait at which a cycle is broken. -/
def State.breakAt (s : State) (c : List Recorded) : Option Recorded :=
  c.foldl (fun (r : Option Recorded) w =>
    match r with
    | some v => if s.breakRank v < s.breakRank w then some w else r
    | none => some w) none

/-- Breaks one cycle: one wait completes with DLK, and the records are queued as a deadlock report. -/
def State.breakCycle (s : State) (c : List Recorded) : State :=
  match s.breakAt c with
  | some w => { s.breakWait w.group true with out := s.out ++ [.deadlock (c.map Recorded.bytes)] }
  | none => s

/-- WAITFOR_WALK. -/
def execWaitforWalk (s : State) : Host.Outcome State Fault Refusal :=
  let s1 := { s with input := .none }
  let s2 := s.leastCycles.foldl State.breakCycle s1
  .next { s2 with walked := (s2.recorded.filter s2.idleWait).map (fun w => (w, s2.actors w)), touched := [], timers := Assoc.set 0 s2.timers 0 s.clock }

end Sys2Proof.Machine
end

