-- ==== Sys2Proof/Machine/Sched.lean ====
section
/-! DEFINITION. The scheduler below the placer: the issue cycle (03 R64 to R67), swap-out and resume (03 R70, R71), register lines (04 R75),
the activity forecast (03 R73, R74), and the ends of groups and units (02 R18, R41; 15 R369). -/

namespace Sys2Proof.Machine

/-! ### The issue cycle (03 R64 to R67) -/

/-- One more than the cycle in which a live slot's instruction was last found not ready. -/
def Group.skipOf (g : Group) (slot : Bool) : Nat := if slot then g.skip1 else g.skip0

/-- Whether a live slot of a group may issue in cycle `n` as far as issue itself can tell. -/
def Group.slotReady (g : Group) (n : Nat) (slot : Bool) : Bool :=
  decide ((g.live slot).kind = 1) && decide (g.skipOf slot ≠ n + 1) && !g.atHinge slot

/-- Whether a resident group is ready in cycle `n` (03 R64): stalls elapsed, in no wait, not stopped, not awaiting its overlay. -/
def Group.ready (g : Group) (n : Nat) : Bool :=
  g.resident && decide (g.stop = .running) && decide (g.wait = .none) && !g.ending && !g.cancelled && g.awaitOverlay.isNone &&
  decide (g.readyAt ≤ n) && (g.slotReady n false || g.slotReady n true)

/-- The slot of a ready group that issues: with both ready, the one that did not issue last (03 R67). -/
def Group.issueSlot (g : Group) (n : Nat) : Bool :=
  if g.slotReady n false && g.slotReady n true then !g.lastSlot else g.slotReady n true

/-- Whether a role's engine is busy in a partition (03 R65). The load of an overlay for a placement takes none of the copy engine's 32
entries.
DESIGN CHOICE: log 117. -/
def State.engineBusy (s : State) (part : Nat) : Role → Bool
  | .copy => decide (32 ≤ (s.copies.filter (fun x => decide (x.2.core = part / 4))).length)
  | .matrix => (s.muHolder part).isSome ||
      (match (s.part part).mu with | .awake => false | .idle => false | _ => true)
  | .vector => decide ((s.part part).cycle < (s.part part).vecBusy)

/-- The role with a code. -/
def roleOf (n : Nat) : Role :=
  match n % 3 with
  | 0 => .copy
  | 1 => .matrix
  | _ => .vector

/-- The ready group of a role in a partition with the lowest age stamp; a group placed with a cluster waits for its unit's start
(03 R59). -/
def State.oldestReady (s : State) (part : Nat) (r : Role) : Option (Nat × Group) :=
  (s.groups.filter (fun x => decide (x.2.partNo = part) && decide (x.2.role = r) && decide (x.2.startAt ≤ s.clock) &&
      x.2.ready (s.part part).cycle)).foldl
    (fun (o : Option (Nat × Group)) x =>
      match o with
      | some y => if x.2.age < y.2.age then some x else o
      | none => some x) none

/-- The selection of a partition: the role code and the group. -/
def State.select (s : State) (part : Nat) : Option (Nat × Nat × Group) :=
  (List.range 3).findSome? (fun i =>
    let r := ((s.part part).ptr + i) % 3
    if s.engineBusy part (roleOf r) then none else (s.oldestReady part (roleOf r)).map (fun x => (r, x.1, x.2)))

/-- How often in succession a role has chosen a group, this time included. -/
def Part.successive (p : Part) (role key : Nat) : Nat :=
  match Assoc.find role p.chosen with
  | some (k, n) => if k = key then n + 1 else 1
  | none => 1

/-- A partition in which no role's selections have chosen a group in succession. -/
def Part.forget (p : Part) (key : Nat) : Part := { p with chosen := p.chosen.filter (fun x => decide (x.2.1 ≠ key)) }

/-- A group chosen for issue: the rotation moves past its role, and the 64th choice in succession gives it the youngest stamp. An issue
of a vector-role group is vector work of its partition (03 R74).
DESIGN CHOICE: log 118. -/
def State.choose_ (s : State) (part role key : Nat) (g : Group) : State :=
  let p := s.part part
  let n := p.successive role key
  let p1 := { p with
    ptr := (role + 1) % 3, cycle := p.cycle + 1, chosen := Assoc.put role (key, if n = 64 then 0 else n) p.chosen
    ranVector := p.ranVector || decide (role = 2) }
  let s1 := { s.setPart part p1 with
    issue := some { key := key, slot := g.issueSlot p.cycle, before := p, age := g.age }
    clock := max s.clock (p.cycle + 1) }
  if n = 64 then s1.restamp key else s1

/-- Settles the fragments of every group of a partition. -/
def State.settlePart (s : State) (part : Nat) : State :=
  s.groups.foldl (fun s x => if x.2.partNo = part ∧ x.2.resident = true then s.settle x.1 else s) s

/-- ISSUE_CYCLE of one of the module's 1,024 partitions (01 R9): it selects a group, whose instruction issues next, or its rotation moves on. A core that is being
replaced by a spare issues nothing (13 R307). -/
def execIssueCycle (s : State) : Host.Outcome State Fault Refusal :=
  let s1 := { s with input := .none }
  match s.input with
  | .one part =>
    if 1024 ≤ part ∨ Assoc.get false s.draining (part / 4) = true then .next s1 else
    let s2 := s1.settlePart part
    let p := s2.part part
    match s2.select part with
    | some (r, key, g) => .next (s2.choose_ part r key g)
    | none => .next { s2.setPart part { p with ptr := (p.ptr + 1) % 3, cycle := p.cycle + 1 } with clock := max s.clock (p.cycle + 1) }
  | _ => .next s1

/-! ### Swap-out and resume (03 R70, R71; 02 R42, R43) -/

/-- Whether a group's wait is swap-eligible. -/
def Group.swapEligible (g : Group) : Bool :=
  match g.wait with
  | .object _ _ _ _ _ => true
  | .remote _ => true
  | .held _ _ => true
  | .trapCall _ _ => true
  | _ => false

/-- SWAPIDLE × 16. -/
def State.swapIdle (s : State) : Nat := 16 * bitsOf (s.ctlNat .sched 0 4) 4 8

/-- SWAPIDLE_EXPIRY of a group. -/
def execSwapidleExpiry (s : State) : Host.Outcome State Fault Refusal :=
  let s1 := { s with input := .none }
  match s.input with
  | .one key =>
    match Assoc.find key s.groups with
    | some g =>
      if g.resident && g.swapEligible && decide (g.waitSince + s.swapIdle ≤ s.now g) then .next (s1.setGroup key g.swapOut) else .next s1
    | none => .next s1
  | _ => .next s1

/-- The swapped-out group of a core that became ready first.
DEDUCED: log 40. -/
def State.firstToResume (s : State) (key : Nat) (g : Group) : Bool :=
  s.groups.all (fun x => !(decide (x.2.core = g.core) && x.2.wantsSlot) || decide (g.readySince < x.2.readySince) ||
    (decide (g.readySince = x.2.readySince) && decide (key ≤ x.1)))

/-- A partition of a core with a free resident slot, the device's choice among them. -/
def State.resumePart (s : State) (core : Nat) : Option Nat :=
  let ps := (List.range 4).filter (fun p => decide (s.residents (4 * core + p) < 24))
  ps[Config.freeNat s.fresh core % ps.length]?

/-- A resident group of a core in a swap-eligible wait, the device's choice. -/
def State.victim (s : State) (core : Nat) : Option Nat :=
  let vs := (s.groups.filter (fun x => decide (x.2.core = core) && x.2.resident && x.2.swapEligible)).map (fun x => x.1)
  vs[Config.freeNat s.fresh (1000 + core) % vs.length]?

/-- A group resumes in a partition: its cycle counts follow that partition's, and lines may have been evicted while it was out.
DESIGN CHOICE: log 39. -/
def State.resume (s : State) (key : Nat) (g : Group) (part : Nat) : State :=
  let old := s.now g
  let new := (s.part (4 * g.core + part)).cycle
  let shift (t : Nat) : Nat := new + (t - old)
  let g1 := { g with
    part := part, resident := true, readyAt := shift g.readyAt, waitSince := new, skip0 := 0, skip1 := 0
    hazards := (g.liveHazards old).map (fun h => { h with lands := shift h.lands })
    absent := BitVec.ofNat 256 (Config.freeNat s.fresh 2000)
    uAbsent := decide (Config.freeNat s.fresh 2001 % 2 = 1)
    pAbsent := decide (Config.freeNat s.fresh 2002 % 2 = 1)
    zAbsent := if g.role = .matrix then BitVec.ofNat 8 (Config.freeNat s.fresh 2003) else 0 }
  { ((s.setPart g.partNo ((s.part g.partNo).forget key)).setGroup key g1).restamp key with fresh := s.fresh + 1 }

/-- GROUP_RESUME: a ready swapped-out group takes a free resident slot of its core, or that of a waiting group, which is swapped out. -/
def execGroupResume (s : State) : Host.Outcome State Fault Refusal :=
  let s1 := { s with input := .none }
  match s.input with
  | .one key =>
    match Assoc.find key s.groups with
    | some g =>
      if g.wantsSlot && s.firstToResume key g then
        let s2 := match s.resumePart g.core, s.victim g.core with
          | none, some v => { s1.mapGroup v Group.swapOut with fresh := s.fresh + 1 }
          | _, _ => s1
        match s2.resumePart g.core with
        | some p => .next (s2.resume key g p)
        | none => .next s2
      else .next s1
    | none => .next s1
  | _ => .next s1

/-- REGISTER_LINE_LOAD of a group's line: 0 to 255 a lane line by image position, 256 the uniform line, 257 the predicate line,
258 + t tile t (04 R75). -/
def execRegisterLineLoad (s : State) : Host.Outcome State Fault Refusal :=
  let s1 := { s with input := .none }
  match s.input with
  | .two key n =>
    .next (s1.mapGroup key (fun g =>
      if n < 256 then { g with absent := g.absent &&& ~~~(BitVec.ofNat 256 (2 ^ n)) }
      else if n = 256 then { g with uAbsent := false }
      else if n = 257 then { g with pAbsent := false }
      else { g with zAbsent := g.zAbsent &&& ~~~(BitVec.ofNat 8 (2 ^ (n - 258))) }))
  | _ => .next s1

/-! ### The activity forecast (03 R73, R74) -/

/-- The units of a launch that are still to be placed: those cancelled before placement are not. -/
def Launch.toPlace (l : Launch) : Nat := l.units - l.placed - (l.skipped.filter (fun ix => decide (l.placed ≤ ix))).length

/-- Remaining units of the eligible launches, weighted by a factor of each. -/
def State.demand (s : State) (f : Launch → Nat) : Nat :=
  (s.launches.filter (fun x => !x.2.held && !x.2.cancelled)).foldl (fun a x => a + x.2.toPlace * f x.2) 0

/-- One forecast field. -/
def forecast (limit a w : Nat) : Nat := min limit (a + (w + 1) / 2)

/-- Partitions of a die that satisfy a condition. -/
def State.partsOf (s : State) (die : Nat) (f : Nat → Part → Bool) : Nat :=
  (s.parts.filter (fun x => decide (x.1 / 512 = die) && f x.1 x.2)).length

/-- The cores of a die whose copy engines executed work since the last forecast: an operation or an overlay load was started or is in
progress (03 R74). -/
def State.copyCores (s : State) (die : Nat) : List Nat :=
  let cores : List Nat := s.ranCopy.map (fun (x : Nat × Bool) => x.1) ++ s.copies.map (fun (x : Nat × CopyOp) => x.2.core) ++
    (s.slots.filter (fun (x : Nat × Slot) => x.2.loading.isSome)).map (fun (x : Nat × Slot) => x.1 / 4)
  (cores.filter (fun c => decide (dieOf c = die))).eraseDups

/-- The value that the scheduler writes to AFR of a die. -/
def State.forecastWord (s : State) (die : Nat) : Nat :=
  let mu := forecast 512 (s.partsOf die (fun n p => p.ranMatrix || (s.muHolder n).isSome)) (s.demand (fun l => min l.nmatrix 4))
  let vp := forecast 512 (s.partsOf die (fun _ p => p.ranVector || decide (p.cycle < p.vecBusy))) (s.demand (fun l => min l.nvector 4))
  let ce := forecast 128 (s.copyCores die).length (s.demand (fun l => if 0 < l.ncopy then 1 else 0))
  let seq := (s.ctlNat .sched (0x0C + 8 * die) 4 + 1) % 2 ^ 32
  mu + 2 ^ 10 * vp + 2 ^ 20 * ce + 2 ^ 32 * seq

/-- ACTIVITY_FORECAST_WRITE of both dies. -/
def execActivityForecastWrite (s : State) : Host.Outcome State Fault Refusal :=
  let s1 := ((s.ctlSet .sched 0x08 8 (s.forecastWord 0)).ctlSet .sched 0x10 8 (s.forecastWord 1))
  .next { s1 with
    input := .none, ranCopy := [], timers := Assoc.set 0 s1.timers 1 s.clock
    parts := s1.parts.foldl (fun t x => Assoc.set {} t x.1 { x.2 with ranMatrix := false, ranVector := false }) s1.parts }

/-! ### The ends of groups and units -/

/-- Whether everything a group issued has completed: its engine operations, its memory operations, its doorbells, and
what its accesses come after (02 R33). -/
def State.quiet (s : State) (key : Nat) (g : Group) : Bool :=
  decide (g.ctrCopy = 0) && decide (g.ctrMatrix = 0) && decide (g.ctrRemote = 0) && decide (g.ctrIo = 0) &&
  g.matrixOp.isNone && g.geoOp.isNone && s.ops.all (fun o => decide (o.2.group ≠ key)) &&
  s.bells.all (fun b => decide (b.2.group ≠ key)) && s.copies.all (fun c => decide (c.2.group ≠ key)) &&
  s.locks.all (fun l => decide (l.2.group ≠ key)) && s.debtsPaid g (BitVec.allOnes 32) g.po none

/-- The report of a class's failures at the end of a group (15 R369). -/
def Group.endReport (g : Group) (c : EngineClass) (f : Failure) : Report :=
  { jobid := g.job, core := g.core, frame := g.frame, launchid := g.launchid.toNat
    faultword := f.trap.faultword (some c) f.more, pcword := g.exitPc.toNat, faddr := f.trap.addr % 2 ^ 56
    lanes := f.trap.lanes.toNat, groupix := g.groupix.toNat }

/-- The failures that remain when a group ends are reported, one report for each class. -/
def State.reportFailures (s : State) (g : Group) : State :=
  g.fails.foldl (fun s f => s.report (dieOf g.core) (g.endReport (classOf f.1) f.2)) s

/-- A group's unit counter falls with status bits (02 R31). -/
def State.countGroup (s : State) (g : Group) (bits : Nat) : State :=
  match s.launchOf g with
  | some l =>
    State.device 5 s { job := l.job, mask := l.keymask, va := l.block + 0x20 + 16 * g.unitix.toNat, op := .down 0 bits 0 l.ctrs }
  | none => s

/-- A group leaves its core: its frame and its place in its unit are given up. -/
def State.removeGroup (s : State) (key : Nat) (g : Group) : State :=
  { s.setPart g.partNo ((s.part g.partNo).forget key) with
    groups := Assoc.del key s.groups
    units := Assoc.modify (unitKey g.launchid.toNat g.unitix.toNat) (fun u => { u with live := u.live - 1 }) s.units }

/-- A group ends: it leaves its core and its unit counter falls (02 R18, R31). -/
def State.endGroup (s : State) (key : Nat) (g : Group) (bits : Nat) : State := (s.removeGroup key g).countGroup g bits

/-- GROUP_END of a group whose lanes have all exited (a cancellation that reaches it after its last EXIT changes nothing, 15 R369), that a
cancellation has stopped, or that was lost, once its operations have
completed: a lost group counts with FAULT (02 R33, R44). -/
def execGroupEnd (s : State) : Host.Outcome State Fault Refusal :=
  let s1 := { s with input := .none }
  match s.input with
  | .one key =>
    match Assoc.find key s.groups with
    | some g =>
      if s.quiet key g then
        if g.stop = .lost then .next (s1.endGroup key g stFault)
        else if g.ending then .next ((s1.reportFailures g).endGroup key g (if g.fails.isEmpty then 0 else stFault))
        else if g.cancelled then .next (s1.endGroup key g 0)
        else .next s1
      else .next s1
    | none => .next s1
  | _ => .next s1

/-- STATUS of a unit's counter. -/
def State.unitStatus (s : State) (l : Launch) (ix : Nat) : Nat :=
  match s.counterFlat l (l.block + 0x20 + 16 * ix) with
  | some f => s.cstatus f
  | none => 0

/-- Whether an access of the device to a unit's counter waits, or would: its page is held or its line shackled. -/
def State.unitHeld (s : State) (l : Launch) (ix : Nat) : Bool :=
  let va := l.block + 0x20 + 16 * ix
  s.deviceOpen l.job va || s.reachHeld l.job l.keymask va

/-- UNIT_RETIRE of a unit all of whose groups have ended and none of whose records waits (02 R41); it waits while its counter's status
cannot be read. -/
def execUnitRetire (s : State) : Host.Outcome State Fault Refusal :=
  let s1 := { s with input := .none }
  match s.input with
  | .one uk =>
    match Assoc.find uk s.units with
    | some u =>
      if u.live = 0 ∧ u.pending.isEmpty = true ∧ u.retired = false then
        match Assoc.find u.launch s.launches with
        | some l =>
          let bits := s.unitStatus l u.ix
          if l.ring.contains u.ix || s.unitHeld l u.ix then .next s1
          else .next ({ s1 with units := Assoc.put uk { u with retired := true } s1.units }.unitOfLaunchDone u.launch bits)
        | none => .next s1
      else .next s1
    | none => .next s1
  | _ => .next s1

end Sys2Proof.Machine
end

