-- ==== Sys2Proof/Machine/Launch.lean ====
section
/-! DEFINITION. Launches from record to eligibility: the overlay table (14 R332, R333), pages awaited by the device (10 R504), the checks
and the admission of a record (02 R25 to R30, 03 R51 to R56, 13 R303), and LAUNCH (02 R38 to R40; 17 R409, R410). -/

namespace Sys2Proof.Machine

/-! ### Pages awaited by the device (10 R504) -/

/-- Whether paging can cure a fault: a page fault of CAUSE 0 or 1, or a walk fault of CAUSE 0. -/
def Trap.curable (t : Trap) : Bool :=
  (decide (t.kind = 0x08) && decide (t.cause ≠ 2)) || (decide (t.kind = 0x09) && decide (t.cause = 0))

/-- The service request of a waiter for a page. -/
def State.serviceFor (s : State) (w : Waiter) (page : Nat) : Option (Nat × Service) :=
  s.services.find? (fun x => decide (x.2.waiter = w) && decide (x.2.page = page))

/-- A service token that no open request of a ring holds.
DESIGN CHOICE: log 62. -/
def State.freeToken (s : State) (die : Nat) : Nat :=
  ((List.range (s.services.length + 1)).find? (fun t => !(s.services.any (fun x => decide (x.2.die = die) && decide (x.2.token = t))))).getD 0

/-- Posts a service request of a waiter for the page of a fault, unless it stands already. The report has no place for the walk's LEVEL, and
leaves it out.
DESIGN CHOICE: log 146. -/
def State.postService (s : State) (die : Nat) (w : Waiter) (t : Trap) (r : Report) : State :=
  match s.serviceFor w (t.addr / 2 ^ 16) with
  | some _ => s
  | none =>
    let token := s.freeToken die
    let v : Service := { die := die, token := token, waiter := w, page := t.addr / 2 ^ 16, trap := t }
    { s with services := Assoc.put s.nextId v s.services, nextId := s.nextId + 1 }.report die
      { r with faultword := r.faultword + t.faultword none 0, faddr := t.addr, seq := token, service := true }

/-- Whether a waiter's request for a page stands open. -/
def State.awaiting (s : State) (w : Waiter) : Bool := s.services.any (fun x => decide (x.2.waiter = w) && !x.2.failed)

/-- The fault of a waiter's request that was answered with FAIL. -/
def State.serviceFailed (s : State) (w : Waiter) : Option Trap :=
  s.services.findSome? (fun x => if x.2.waiter = w ∧ x.2.failed = true then some x.2.trap else none)

/-- All requests of a waiter are withdrawn or over. -/
def State.endServices (s : State) (f : Waiter → Bool) : State := { s with services := s.services.filter (fun x => !f x.2.waiter) }

/-! ### Reading memory by places -/

/-- What a read through translated places gives. -/
inductive ReadResult where
  | bytes (b : List Byte)
  | fault (t : Trap)
  | held
  deriving DecidableEq, Repr

/-- The place of an address for the device on behalf of a launch (07 R505). -/
def State.devicePlace (s : State) (job : Nat) (mask : BitVec 16) (va : Nat) (write : Bool) : Place :=
  match s.reach job mask va write with
  | .at flat f => .here flat (some f)
  | .refused t => .fault t
  | .held p => .held p

/-- The `n` bytes from an address, read through places. -/
def State.readVia (s : State) (place : Nat → Place) : Nat → Nat → ReadResult
  | _, 0 => .bytes []
  | va, n + 1 =>
    match place va with
    | .here flat _ =>
      if s.poisoned flat then .fault (poisonAt va false)
      else (match s.readVia place (va + 1) n with | .bytes bs => .bytes (s.byte flat :: bs) | r => r)
    | .fault t => .fault t
    | .held _ => .held
    | .chip _ _ => .fault (windowFault va false)

/-! ### The overlay table (14 R332, R333) -/

/-- An entry of an overlay table. -/
inductive TableEntry where
  | code (addr size : Nat)
  | refused
  | fault (t : Trap)
  | held
  deriving DecidableEq, Repr

/-- A field of a byte list. -/
def fieldOf (b : List Byte) (off n : Nat) : Nat := leNat ((b.drop off).take n)

/-- Entry `j` of the overlay table at CODE. -/
def State.tableEntry (s : State) (place : Nat → Place) (code j : Nat) : TableEntry :=
  match s.readVia place code 16 with
  | .fault t => .fault t
  | .held => .held
  | .bytes h =>
    if fieldOf h 0 2 ≤ j ∨ fieldOf h 2 14 ≠ 0 then .refused
    else
      match s.readVia place (code + 0x10 + 16 * j) 16 with
      | .fault t => .fault t
      | .held => .held
      | .bytes e =>
        let size := fieldOf e 8 4
        if fieldOf e 12 4 ≠ 0 ∨ size < 4 ∨ 65536 < size ∨ size % 4 ≠ 0 then .refused else .code (fieldOf e 0 8) size

/-- The addresses that bound what a reading of entry `j` of the overlay table at CODE reads: its header, and the entry where there is one. -/
def State.tableReads (s : State) (place : Nat → Place) (code j : Nat) : List Nat :=
  [code, code + 15] ++
  (match s.readVia place code 16 with
   | .bytes h => if fieldOf h 0 2 ≤ j ∨ fieldOf h 2 14 ≠ 0 then [] else [code + 0x10 + 16 * j, code + 0x1F + 16 * j]
   | _ => [])

/-! ### Launch records (02 R25 to R27) -/

/-- The launch that a record describes, with a job, a parent's key mask, a queue and counters to be set at admission. -/
def launchOf' (b : List Byte) (job : Nat) (mask : BitVec 16) (queue order : Nat) (ctrs : Counters) (parent : Option (Nat × Nat)) : Launch :=
  { job := job, flags := BitVec.ofNat 32 (fieldOf b 0 4), units := fieldOf b 4 2, perclu := fieldOf b 6 2
    ncopy := fieldOf b 8 1, nmatrix := fieldOf b 9 1, nvector := fieldOf b 10 1, frame := fieldOf b 11 1
    spad := fieldOf b 0xC 4, code := fieldOf b 0x10 8
    entcopy := BitVec.ofNat 32 (fieldOf b 0x18 4), entmatrix := BitVec.ofNat 32 (fieldOf b 0x1C 4)
    entvector := BitVec.ofNat 32 (fieldOf b 0x20 4), keymask := BitVec.ofNat 16 (fieldOf b 0x24 4) &&& mask
    param := BitVec.ofNat 64 (fieldOf b 0x28 8), block := fieldOf b 0x30 8, deps := fieldOf b 0x38 8
    ctrs := ctrs, queue := queue, order := order, parent := parent, gmask := BitVec.ofNat 16 (fieldOf b 0x24 4) &&& mask }

/-- CLUEN and CAPTURE of a launch, its groups per unit, its priority field. -/
def Launch.cluen (l : Launch) : Bool := l.flags.getLsbD 11
def Launch.captures (l : Launch) : Bool := l.flags.getLsbD 12
def Launch.groups (l : Launch) : Nat := l.ncopy + l.nmatrix + l.nvector
def Launch.prio (l : Launch) : Nat := bitsOf l.flags.toNat 8 3

/-- The roles that a launch uses, with their group counts and entry words. -/
def Launch.entries (l : Launch) : List (Role × Nat × BitVec 32) :=
  [(Role.copy, l.ncopy, l.entcopy), (.matrix, l.nmatrix, l.entmatrix), (.vector, l.nvector, l.entvector)].filter (fun e => decide (0 < e.2.1))

/-- Whether a record's own fields fail the check of R27. -/
def badRecord (b : List Byte) (l : Launch) : Bool :=
  decide (l.flags.toNat % 256 ≠ 1) || decide (bitsOf l.flags.toNat 13 19 ≠ 0) || decide (fieldOf b 0x26 2 ≠ 0) ||
  l.entries.any (fun e => decide (bitsOf e.2.2.toNat 22 10 ≠ 0)) ||
  decide (l.units = 0) || decide (l.perclu < 1) || decide (16 < l.perclu) ||
  (if l.cluen then decide (l.units % l.perclu ≠ 0) else decide (l.perclu ≠ 1)) ||
  decide (l.groups = 0) || decide (32 < l.groups) ||
  decide (l.frame < 8) || decide (48 < l.frame) || decide (l.frame % 8 ≠ 0) ||
  decide (l.spad % 256 ≠ 0) || decide (0x200000 < l.spad) || decide (l.deps % 32 ≠ 0)

/-- The result of checking the entries of a record against its overlay table; a failure carries the fault that its reading met. -/
inductive TableCheck where
  | pass
  | fail (t : Option Trap)
  | wait (t : Trap)
  | held
  deriving DecidableEq, Repr

/-- Whether every used entry names a word of an overlay of the image. -/
def State.checkTable (s : State) (l : Launch) : TableCheck :=
  l.entries.foldl (fun r e =>
    match r with
    | .pass =>
      (match s.tableEntry (fun va => s.devicePlace l.job l.keymask va false) l.code (e.2.2.toNat % 256) with
       | .code _ size => if 4 * bitsOf e.2.2.toNat 8 14 < size then .pass else .fail none
       | .refused => .fail none
       | .fault t => if t.curable then .wait t else .fail (some t)
       | .held => .held)
    | x => x) .pass

/-- The addresses of the overlay table that the check of a record reads. -/
def State.checkReads (s : State) (l : Launch) : List Nat :=
  l.entries.flatMap (fun e => s.tableReads (fun va => s.devicePlace l.job l.keymask va false) l.code (e.2.2.toNat % 256))

/-- The number of bytes of a launch block (02 R29). -/
def Launch.blockSize (l : Launch) : Nat := 32 + 16 * l.units

/-- The first address of a launch block in each of its pages, where its own address is one. -/
def Launch.blockPages (l : Launch) : List Nat :=
  if l.block = 0 ∨ l.block % 16 ≠ 0 then [] else (spanPieces l.block l.blockSize).map (fun p => p.1)

/-- Whether a launch block is usable: not 0, aligned, every page reached with write intent; and whether one is held. -/
def State.blockUsable (s : State) (l : Launch) : Bool :=
  decide (l.block ≠ 0) && decide (l.block % 16 = 0) && l.blockPages.all (fun va => s.reachable l.job l.keymask va true)
def State.blockHeld (s : State) (l : Launch) : Bool := (spanPieces l.block l.blockSize).any (fun p => s.reachHeld l.job l.keymask p.1)

/-- Whether a launch block cannot be written now: a page of it is held, a line of it is shackled, or an access of the device to one of its
counters waits. -/
def State.blockWaits (s : State) (l : Launch) : Bool :=
  s.blockHeld l ||
  (spanPieces l.block l.blockSize).any (fun p =>
    match s.reach l.job l.keymask p.1 true with
    | .at flat _ => (List.range ((p.2 + 1 - p.1 + 511) / 256)).any (fun i => s.shackled (flat + 256 * i))
    | _ => false) ||
  s.devq.any (fun x => decide (x.2.job = l.job) && decide (l.block ≤ x.2.va) && decide (x.2.va < l.block + l.blockSize))

/-! ### Held and eligible (03 R55, R56) -/

/-- What a reading of a launch's predecessors decides. -/
inductive Held where
  | eligible
  | held
  /-- Discarded with a status bit; a launch-record fault is queued with FAULT. -/
  | discard (bits : Nat)
  deriving DecidableEq, Repr

/-- The reading of one predecessor counter; bytes that are poisoned are read as they stand.
DESIGN CHOICE: log 113. -/
def State.readPredecessor (s : State) (l : Launch) (va : Nat) : Held :=
  if va % 16 ≠ 0 then .discard stFault
  else
    match s.reach l.job l.keymask va false with
    | .at flat _ => if s.remain flat ≠ 0 then .held else if s.cstatus flat ≠ 0 then .discard stCancelled else .eligible
    | .held _ => .held
    | .refused _ => .discard stFault

/-- The reading of all of a launch's predecessors: the first that discards it decides, then any that holds it. -/
def State.heldCheck (s : State) (l : Launch) : Held :=
  let deps : Option (List Nat) :=
    if l.deps = 0 then some []
    else
      match s.reach l.job l.keymask l.deps false with
      | .at flat _ => if s.poisoned flat then none else some ((List.range 4).map (fun i => s.nat (flat + 8 * i) 8))
      | _ => none
  if l.deps ≠ 0 ∧ s.reachHeld l.job l.keymask l.deps = true then .held
  else
    match deps with
    | none => .discard stFault
    | some ds =>
      ((ds ++ [l.ctrs.priorph]).filter (fun va => decide (va ≠ 0))).foldl (fun r va =>
        match r, s.readPredecessor l va with
        | .discard b, _ => .discard b
        | _, .discard b => .discard b
        | .held, _ => .held
        | _, x => x) .eligible

/-- The addresses that a reading of a launch's predecessors reads: its dependence block and the counters. -/
def State.predecessors (s : State) (l : Launch) : List Nat :=
  let deps : List Nat := match s.reach l.job l.keymask l.deps false with
    | .at flat _ => if l.deps = 0 then [] else (List.range 4).map (fun i => s.nat (flat + 8 * i) 8)
    | _ => []
  ([l.deps, l.ctrs.priorph] ++ deps).filter (fun va => decide (va ≠ 0))

/-- A held launch's predecessors are read: it stays held, becomes eligible, or is discarded. -/
def State.recheck (s0 : State) (id : Nat) (l : Launch) : State :=
  let s := s0.noteWalks l.job l.keymask false (s0.predecessors l)
  match s0.heldCheck l with
  | .eligible => { s with launches := Assoc.put id { l with held := false } s.launches }
  | .held => { s with launches := Assoc.put id { l with heldSince := s.clock } s.launches }
  | .discard bits =>
    let die := s.launchDie l.parent
    let s1 := if bits = stFault then (s.noteRefusals l.job l.keymask false (s.predecessors l) die).launchFault die l.job id else s
    s1.discardLaunch id bits

/-! ### Admission (02 R27 to R30) -/

/-- A record that ends without admission: its counter is written where its block is usable, and its graph counts it complete. -/
def State.endUnadmitted (s : State) (l : Launch) (bits : Nat) : State :=
  (if l.block = 0 ∨ l.block % 16 ≠ 0 then s else s.endCounter l bits).graphMember l bits

/-- The generation that a capturing record takes: slot and generation (13 R303). -/
def State.captureOf (s : State) (l : Launch) : Option (Nat × Nat) :=
  let whcur := s.ctlNat .memctl 0x428 4
  let parent := match l.parent with
    | some (p, _) => (Assoc.find p s.launches).bind (fun x => x.capture.map (fun n => (n, x.wgen.toNat)))
    | none => none
  match parent with
  | some x => some x
  | none => if bitsOf whcur 8 1 = 1 then some (bitsOf whcur 0 4, s.nat (s.weightSlot (bitsOf whcur 0 4)) 4) else none

/-- Writes the launch block of an admitted launch: its counters, OHEAD, OCOUNT and the reserved field after it (02 R29 to R31). -/
def State.startBlock (s : State) (l : Launch) : State :=
  let at_ (s : State) (va : Nat) (f : State → Nat → State) : State :=
    match s.reach l.job l.keymask va true with | .at flat x => f (s.setAD x true) flat | _ => s
  let s1 := at_ (at_ s l.block (fun s f => s.startCounter f l.units 0)) (l.block + 0x10) (fun s f => s.storeNat (f + 0xA) 6 0)
  (List.range l.units).foldl (fun s u => at_ s (l.block + 0x20 + 16 * u) (fun s f => s.startCounter f l.groups 0)) s1

/-- Takes a record that has passed its check into its launch queue. -/
def State.admitLaunch (s : State) (id : Nat) (l : Launch) : State :=
  let cap := if l.captures then s.captureOf l else none
  let l1 := { l with
    wgen := match cap with | some x => BitVec.ofNat 32 x.2 | none => 0
    capture := cap.map (fun x => x.1)
    heldSince := s.clock }
  let s1 := match cap with | some x => s.captureSlot x.1 | none => s
  ({ s1 with launches := Assoc.put id l1 s1.launches, nextId := s1.nextId + 1 }.startBlock l1).recheck id l1

/-- Whether a cancelled level contains a launch: its graph, phase or job was cancelled in the counter's present use (02 R36). -/
def State.levelCancelled (s : State) (l : Launch) : Bool :=
  [(2, l.ctrs.graph), (3, l.ctrs.phase), (4, l.ctrs.jobc)].any (fun x =>
    match s.levelFlat l x.1 x.2 with
    | some f => s.cancels.contains (x.1, l.job, f, s.gen f)
    | none => false)

/-- What becomes of a record at its admission. -/
inductive Admission where
  /-- It ends, or is admitted: the state after. -/
  | done (s : State)
  /-- It waits for a page of its overlay table, or for a migrating page. -/
  | waits (s : State)
  deriving DecidableEq, Repr

/-- The admission of a record on behalf of a waiter. -/
def State.admission (s : State) (b : List Byte) (id : Nat) (l : Launch) (w : Waiter) : Admission :=
  let die := s.launchDie l.parent
  let fails (s : State) : Admission := .done (((s.endServices (fun x => decide (x = w))).launchFault die l.job id).endUnadmitted l stFault)
  if s.levelCancelled l then .done ((s.endServices (fun x => decide (x = w))).endUnadmitted l stCancelled)
  else if s.blockWaits l then .waits s
  else
    let s1 := s.noteWalks l.job l.keymask true l.blockPages
    if !s.blockUsable l || badRecord b l || (l.captures && (s.captureOf l).isNone) || (s.serviceFailed w).isSome then
      fails (s1.noteRefusals l.job l.keymask true l.blockPages die)
    else
      let s2 := s1.noteWalks l.job l.keymask false (s.checkReads l)
      match s.checkTable l with
      | .pass => .done ((s2.endServices (fun x => decide (x = w))).admitLaunch id l)
      | .fail t => fails (match t with | some x => s2.noteConfig x l.job die | none => s2)
      | .wait t => .waits (s2.postService 0 w t { jobid := l.job, launchid := id })
      | .held => .waits s2

/-! ### Submission queues (03 R52 to R54) -/

/-- The place of queue `q`'s registers. -/
def qReg (q : Nat) : Nat := 0x1000 + 0x20 * q

/-- Admitted records that a launch queue holds: a record leaves its queue when its last unit has been placed.
DESIGN CHOICE: log 114. -/
def State.queueCount (s : State) (q : Nat) : Nat :=
  (s.launches.filter (fun x => decide (x.2.queue = q) && decide (x.2.placed < x.2.units))).length

/-- Whether a submission queue may read its next entry. -/
def State.queueReady (s : State) (q : Nat) : Bool :=
  decide (q < 64) && decide (q % 8 ≠ 7) && decide (s.ctlNat .sched (qReg q + 0x0E) 2 % 2 = 1) && powerIn 16 4096 (s.ctlNat .sched (qReg q + 8) 2) &&
  decide (s.ctlNat .sched (qReg q + 0xA) 2 ≠ s.ctlNat .sched (qReg q + 0xC) 2) && decide (s.queueCount q < 256)

/-- QHEAD advances. -/
def State.nextEntry (s : State) (q : Nat) : State :=
  s.ctlSet .sched (qReg q + 0xA) 2 ((s.ctlNat .sched (qReg q + 0xA) 2 + 1) % s.ctlNat .sched (qReg q + 8) 2)

/-- The key mask of the submission path: every ordinary key (07 R505). -/
def ordinaryKeys : BitVec 16 := 0x7FFD

/-- Whether an entry is discarded: no live job, reserved bytes, an unaligned or unreachable record or counter (03 R54), or a poisoned
record.
DEDUCED: log 49. DESIGN CHOICE: log 113. -/
def State.badEntry (s : State) (e : List Byte) : Bool :=
  let job := fieldOf e 0x28 2
  let counters := [fieldOf e 8 8, fieldOf e 0x10 8, fieldOf e 0x18 8]
  !s.jobLive job || decide (fieldOf e 0x2A 22 ≠ 0) || decide (fieldOf e 0 8 % 64 ≠ 0) || counters.any (fun a => decide (a % 16 ≠ 0)) ||
  (match s.reach job ordinaryKeys (fieldOf e 0 8) false with
   | .at flat _ =>
     let mask := BitVec.ofNat 16 (s.nat (flat + 0x24) 4)
     s.poisoned flat || counters.any (fun a => !s.reachable job mask a true && !s.reachHeld job mask a)
   | .held _ => false
   | .refused _ => true)

/-- The configuration-error reports of an entry's addresses that lead to no memory (07 R150). -/
def State.entryErrors (s : State) (e : List Byte) : State :=
  let job := fieldOf e 0x28 2
  if s.jobLive job then
    (match s.reach job ordinaryKeys (fieldOf e 0 8) false with
     | .refused t => s.noteConfig t job
     | .at flat _ =>
       [fieldOf e 8 8, fieldOf e 0x10 8, fieldOf e 0x18 8].foldl (fun s a =>
         match s.reach job (BitVec.ofNat 16 (s.nat (flat + 0x24) 4)) a true with | .refused t => s.noteConfig t job | _ => s) s
     | .held _ => s)
  else s

/-- The device's walks for the checks of an entry: its record, and with the record's key mask its counters. -/
def State.entryWalks (s : State) (e : List Byte) : State :=
  let job := fieldOf e 0x28 2
  let s1 := s.noteWalks job ordinaryKeys false [fieldOf e 0 8]
  match s.reach job ordinaryKeys (fieldOf e 0 8) false with
  | .at flat _ => s1.noteWalks job (BitVec.ofNat 16 (s.nat (flat + 0x24) 4)) true [fieldOf e 8 8, fieldOf e 0x10 8, fieldOf e 0x18 8]
  | _ => s1

/-- Whether an entry's translation is held for a migrating page. -/
def State.entryHeld (s : State) (e : List Byte) : Bool :=
  let job := fieldOf e 0x28 2
  match s.reach job ordinaryKeys (fieldOf e 0 8) false with
  | .held _ => true
  | .at flat _ => [fieldOf e 8 8, fieldOf e 0x10 8, fieldOf e 0x18 8].any (fun a => s.reachHeld job (BitVec.ofNat 16 (s.nat (flat + 0x24) 4)) a)
  | .refused _ => false

/-- The identifier that a waiter's launch has, or a free one. -/
def State.waiterId (s : State) (f : Waiter → Option Nat) : Nat := (s.services.findSome? (fun x => f x.2.waiter)).getD s.freeLaunchId

/-- SUBMISSION_ENTRY_READ of a queue. -/
def execSubmissionEntryRead (s : State) : Host.Outcome State Fault Refusal :=
  let s1 := { s with input := .none }
  match s.input with
  | .one q =>
    let at_ := s.ctlNat .sched (qReg q) 8 + 64 * s.ctlNat .sched (qReg q + 0xA) 2
    if s.queueReady q && !s.homeWaits at_ then
      let e := memBytes s.mem at_ 64
      if s.badEntry e then
        let qstat := s.ctlNat .sched (qReg q + 0x10) 4
        .next ((((s1.ctlSet .sched (qReg q + 0x10) 4 (setBits qstat 16 1 1)).report 0
          { jobid := fieldOf e 0x28 2, faultword := 0x13 }).entryErrors e).entryWalks e |>.nextEntry q)
      else if s.entryHeld e then .next s1
      else
        let job := fieldOf e 0x28 2
        match s.fetch job ordinaryKeys (fieldOf e 0 8) 64 with
        | some b =>
          let id := s.waiterId (fun w => match w with | .admission n i => if n = q then some i else none | _ => none)
          let ctrs : Counters := { graph := fieldOf e 8 8, phase := fieldOf e 0x10 8, jobc := fieldOf e 0x18 8, priorph := fieldOf e 0x20 8 }
          let l := launchOf' b job (BitVec.allOnes 16) q s.nextId ctrs none
          if s.awaiting (.admission q id) then .next s1
          else
            match (s1.entryWalks e).admission b id l (.admission q id) with
            | .done s2 => .next (s2.nextEntry q)
            | .waits s2 => .next s2
        | none => .next s1
    else .next s1
  | _ => .next s1

/-! ### LAUNCH (02 R38, R39; 17 R409, R410) -/

/-- The flat address of the overflow ring's fields of a launch block, OBASE first: they may lie in another page than LCOUNT (02 R29). -/
def State.ringFields (s : State) (l : Launch) : Option Nat := s.counterFlat l (l.block + 0x10)

/-- The overflow ring of a launch: base, capacity, OHEAD, OCOUNT. -/
def State.overflow (s : State) (l : Launch) : Option (Nat × Nat × Nat × Nat) :=
  match s.ringFields l with
  | some f => some (s.nat f 8, s.nat (f + 8) 2, s.nat (f + 0xA) 2, s.nat (f + 0xC) 2)
  | none => none

/-- OHEAD and OCOUNT of a launch's block are written. -/
def State.setRingFields (s : State) (l : Launch) (head count : Nat) : State :=
  match s.ringFields l with
  | some f => ((s.noteWalks l.job l.keymask true [l.block + 0x10]).storeNat (f + 0xA) 2 head).storeNat (f + 0xC) 2 count
  | none => s

/-- Where LAUNCH puts a record: status 0, 1 with the ring entry's address, or 2. -/
def State.launchPlace (s : State) (l : Launch) (u : LUnit) : Nat × Nat :=
  if u.pending.length < 4 ∧ l.ring.contains u.ix = false then (0, 0)
  else
    match s.overflow l with
    | some (base, cap, head, count) => if count < cap then (1, base + 64 * ((head + count) % cap)) else (2, 0)
    | none => (2, 0)

/-- The launch and unit of the issuing group. -/
def Ctx.unitAndLaunch (c : Ctx) : Option (Launch × LUnit) :=
  match c.s.launchOf c.g, c.s.unitOf c.g with
  | some l, some u => some (l, u)
  | _, _ => none

/-- The ring entry's check, when the record would go there. -/
def Ctx.ringTraps (c : Ctx) : List Trap :=
  match c.unitAndLaunch with
  | some (l, u) =>
    match c.s.launchPlace l u with
    | (1, va) => (if va % 64 ≠ 0 then [misaligned va true] else []) ++
        (match c.globalPlace va true with
         | .fault t => [t]
         | .here flat _ => if c.s.poisoned flat then [poisonAt va true] else []
         | _ => [])
    | _ => []
  | none => []

/-- A child enters its graph: the graph counter rises, through the child's own key mask (07 R505).
DEDUCED: log 110. -/
def State.graphJoin (s : State) (child : Launch) : State := s.increment child.job child.gmask child.ctrs.graph

/-- What LAUNCH must write in memory waits: the child's graph counter, and with `block` the ring's fields of the parent's launch block; the
address of a page that is held, or none where only a shackle, an earlier access of the device or the matrix instruction that the group has in
flight stands in the way. -/
def State.launchWaits (s : State) (g : Group) (l child : Launch) (block : Bool) : Option (Option Nat) :=
  let look (mask : BitVec 16) (va : Nat) : Option (Option Nat) :=
    match s.reach l.job mask va true with
    | .held _ => some (some va)
    | .at flat _ => if s.shackled flat || s.deviceOpen l.job va || g.readsStill (addrsFrom flat 16) then some none else none
    | .refused _ => none
  match look child.gmask child.ctrs.graph, (if block then look l.keymask (l.block + 0x10) else none) with
  | some x, _ => some x
  | none, y => y

/-- The child that a record describes for a parent's unit. -/
def State.childOf (s : State) (b : List Byte) (parent ix : Nat) (p : Launch) : Launch :=
  let l := launchOf' b p.job p.keymask 0 s.nextId p.ctrs (some (parent, ix))
  { l with queue := 8 * l.prio + 7 }

/-- A record discarded because its level has been cancelled (02 R37). -/
def State.discardRecord (s : State) (b : List Byte) (parent ix : Nat) (p : Launch) : State :=
  s.endUnadmitted (s.childOf b parent ix p) stCancelled

/-- Whether LAUNCH looks at the overflow ring: its unit's queue is full, or records of the unit stand in the ring. -/
def usesRing (l : Launch) (u : LUnit) : Bool := !(decide (u.pending.length < 4) && !l.ring.contains u.ix)

/-- LAUNCH. It waits while a page that it reads or writes is held for migration, and while a line that it writes is shackled (10 R231,
07 R157). -/
def execLaunch (d a : BitVec 5) (q : BitVec 2) (st : BitVec 3) (s : State) : Host.Outcome State Fault Refusal :=
  perform (.launch d a q st) s (fun _ => []) (fun c => !c.released 3 || c.objectHeld 0 0)
    (fun c => c.objectTraps (c.kpair a) 64 1 false (c.globalPlace (c.kpair a) false) ++ c.ringTraps)
    (fun c =>
      match c.globalPlace (c.kpair a) false, c.unitAndLaunch with
      | .held _, _ => c.hold (c.kpair a) false
      | .here pa f, some (l, u) =>
        let b := memBytes c.s.mem pa 64
        let xs : List Checked := [{ lane := 0, va := c.kpair a, place := .here pa f }]
        let s1 := c.useMem false xs
        let g1 := { c.g with spillTouched := c.g.spillTouched || c.touchesSpill xs }
        let lid := c.g.launchid.toNat
        let uk := unitKey lid u.ix
        let child := c.s.childOf b lid u.ix l
        match c.s.launchWaits c.g l child (!l.cancelled && usesRing l u) with
        | some (some va) => c.hold va true
        | some none => c.withdrawn
        | none =>
        if l.cancelled then c.finish ((s1.graphJoin child).discardRecord b lid u.ix l) g1 d.toNat 0 st.toNat
        else
          match c.s.launchPlace l u with
          | (0, _) =>
            let s2 := { s1 with units := Assoc.put uk { u with pending := u.pending ++ [({ record := b, entered := s1.clock } : Pending)] } s1.units }
            c.finish (s2.graphJoin child) g1 d.toNat 0 st.toNat
          | (1, va) =>
            match c.globalPlace va true with
            | .held _ => c.hold va true
            | .here flat f2 =>
              if c.s.shackled flat || c.g.readsStill (addrsFrom flat 64) then c.withdrawn else
              let ys : List Checked := [{ lane := 0, va := va, place := .here flat f2 }]
              let s2 := { c with s := s1 }.useMem true ys
              let g2 := { g1 with spillTouched := g1.spillTouched || c.touchesSpill ys }
              let s3 := s2.agentStore (cellsOf flat 64 (leNat b))
              let s4 := { s3 with launches := Assoc.put lid { l with ring := l.ring ++ [u.ix] } s3.launches }
              let s5 := match s4.overflow l with
                | some (_, _, head, count) => s4.setRingFields l head (count + 1)
                | none => s4
              c.finish (s5.graphJoin child) g2 d.toNat 1 st.toNat
            | _ => c.withdrawn
          | _ => c.finish (s1.noteWalks l.job l.keymask false [l.block + 0x10]) g1 d.toNat 2 st.toNat
      | .here _ _, none => c.finish c.s c.g d.toNat 2 st.toNat
      | _, _ => c.withdrawn)

/-! ### Pending launches (02 R40) -/

/-- The unit whose record stands at OHEAD, where its queue has room. -/
def State.ringHead (s : State) (lid : Nat) (l : Launch) : Option LUnit :=
  match l.ring with
  | ix :: _ => (Assoc.find (unitKey lid ix) s.units).bind (fun u => if u.pending.length < 4 then some u else none)
  | [] => none

/-- The record at a ring entry, unless it is held: one that cannot be read has every byte 0, which fails the check of R27.
DEDUCED: log 115. -/
def State.ringRecord (s : State) (l : Launch) (va : Nat) : Option (List Byte) :=
  match s.reach l.job l.keymask va false with
  | .at flat _ => some (memBytes s.mem flat 64)
  | .refused _ => some (List.replicate 64 0)
  | .held _ => none

/-- The record at OHEAD moves into its unit's queue when that has room; it waits while the launch block or the record cannot be
accessed. -/
def State.ringMove (s : State) (lid : Nat) : Option State :=
  match Assoc.find lid s.launches with
  | none => none
  | some l =>
    match s.ringHead lid l, s.overflow l, s.ringFields l with
    | some u, some (base, cap, head, count), some fb =>
      let va := base + 64 * (head % cap)
      if s.shackled fb then none
      else
        (s.ringRecord l va).map (fun b =>
          let s0 := (s.noteWalks l.job l.keymask false [va]).noteRefusals l.job l.keymask false [va] (dieOf u.core)
          let s1 := { s0 with
            units := Assoc.put (unitKey lid u.ix) { u with pending := u.pending ++ [({ record := b, entered := s.clock } : Pending)] } s.units
            launches := Assoc.put lid { l with ring := l.ring.tail } s.launches }
          s1.setRingFields l ((head + 1) % cap) (count - 1))
    | _, _, _ => none

/-- All moves that a freed queue entry allows, by fuel. -/
def State.ringMoves : Nat → Nat → State → State
  | 0, _, s => s
  | fuel + 1, lid, s => match s.ringMove lid with | some s1 => State.ringMoves fuel lid s1 | none => s

/-- The oldest record of a unit's queue leaves it. -/
def State.dropPending (s : State) (uk lid : Nat) : State :=
  State.ringMoves 4 lid { s with units := Assoc.modify uk (fun u => { u with pending := u.pending.tail }) s.units }

/-- PENDING_LAUNCH_ADMIT of a unit: records of its launch's ring that may move into their queues do, and its oldest record is admitted, 64
cycles after it entered and with room in its priority's queue. -/
def execPendingLaunchAdmit (s0 : State) : Host.Outcome State Fault Refusal :=
  let s := match s0.input with | .one uk => State.ringMoves 4 (uk / 65536) s0 | _ => s0
  let s1 := { s with input := .none }
  match s.input with
  | .one uk =>
    match Assoc.find uk s.units with
    | some u =>
      match u.pending, Assoc.find u.launch s.launches with
      | r :: _, some p =>
        let l := s.childOf r.record u.launch u.ix p
        let id := s.waiterId (fun w => match w with | .child n i => if n = uk then some i else none | _ => none)
        if r.entered + 64 ≤ s.clock ∧ s.queueCount l.queue < 256 ∧ s.awaiting (.child uk id) = false then
          match s1.admission r.record id l (.child uk id) with
          | .done s2 => .next (s2.dropPending uk u.launch)
          | .waits s2 => .next s2
        else .next s1
      | _, _ => .next s1
    | none => .next s1
  | _ => .next s1

/-- HELD_LAUNCH_RECHECK of a launch.
DEDUCED: log 52. -/
def execHeldLaunchRecheck (s : State) : Host.Outcome State Fault Refusal :=
  let s1 := { s with input := .none }
  match s.input with
  | .one id =>
    match Assoc.find id s.launches with
    | some l => if l.held then .next (s1.recheck id l) else .next s1
    | none => .next s1
  | _ => .next s1

end Sys2Proof.Machine
end

