-- ==== Sys2Proof/Machine/Cancel.lean ====
section
/-! DEFINITION. Cancellation (02 R35 to R37; 15 R357). -/

namespace Sys2Proof.Machine

/-- What a cancellation reaches: launches, and single units. -/
structure Scope where
  launches : List Nat
  units : List (Nat × Nat)
  deriving DecidableEq, Repr

/-- Whether a scope contains a unit. -/
def Scope.hasUnit (x : Scope) (lid ix : Nat) : Bool := x.launches.contains lid || x.units.contains (lid, ix)

/-- A scope with the children of its units. -/
def State.children (s : State) (x : Scope) : Scope :=
  let new := (s.launches.filter (fun l =>
    (match l.2.parent with | some (p, ix) => x.hasUnit p ix | none => false) && !x.launches.contains l.1)).map (fun l => l.1)
  { x with launches := x.launches ++ new }

/-- A scope with all its descendants. -/
def State.descendants (s : State) (x : Scope) : Scope := (List.range s.launches.length).foldl (fun x _ => s.children x) x

/-- The counter of a launch at level 2, 3 or 4. -/
def Counters.at (c : Counters) (level : Nat) : Nat := match level with | 2 => c.graph | 3 => c.phase | _ => c.jobc

/-- The units of a job whose counter stands at a flat address. -/
def State.unitsAt (s : State) (job pa : Nat) : List (Nat × Nat) :=
  s.launches.flatMap (fun x =>
    let l := x.2
    if l.job = job then
      (s.pieces l.job l.keymask l.block l.blockSize).filterMap (fun p =>
        let off := p.2.2 + (pa - p.1)
        if p.1 ≤ pa ∧ pa < p.1 + p.2.1 ∧ 32 ≤ off ∧ off % 16 = 0 then some (x.1, (off - 32) / 16) else none)
    else [])

/-- The members of the level of a job whose counter stands at a flat address. -/
def State.levelAt (s : State) (job level pa : Nat) : Scope :=
  if level = 0 then { launches := [], units := s.unitsAt job pa }
  else
    { launches := (s.launches.filter (fun x =>
        decide (x.2.job = job) && decide (s.levelFlat x.2 level (if level = 1 then x.2.block else x.2.ctrs.at level) = some pa))).map (fun x => x.1)
      units := [] }

/-- A unit counter of a unit that is never placed: no member remains, and CANCELLED. -/
def State.zeroUnit (s : State) (l : Launch) (ix : Nat) : State :=
  State.device 5 s { job := l.job, mask := l.keymask, va := l.block + 0x20 + 16 * ix, op := .unplaced }

/-- A unit cancelled before placement: it counts as complete in its launch. -/
def State.skipUnit (s : State) (lid ix : Nat) : State :=
  match Assoc.find lid s.launches with
  | some l =>
    if l.placed ≤ ix ∧ ix < l.units ∧ l.skipped.contains ix = false then
      ({ s.zeroUnit l ix with launches := Assoc.put lid { l with skipped := ix :: l.skipped } s.launches }).unitOfLaunchDone lid stCancelled
    else s
  | none => s

/-- The groups of a cancellation. -/
def State.groupsOf (s : State) (x : Scope) : List (Nat × Group) :=
  s.groups.filter (fun g => x.hasUnit g.2.launchid.toNat g.2.unitix.toNat && decide (g.2.stop ≠ .lost))

/-- A group stops for a cancellation; what waits under locks completes first, and a stop already taken stays recorded. -/
def Group.cancel (g : Group) : Group :=
  { g.swapOut with
    cancelled := true, hold := .none
    wait := match g.wait with | .locks i st => .locks i st | _ => .none }

/-- The object on which a group is parked sees its waiter leave. -/
def State.leaveObject (s : State) (w : Wait) : State :=
  match w with
  | .object _ pa _ _ (.counter _) => s.refreshWaiters pa (pa + 8) 8
  | .object _ pa _ _ (.arrival _ _ _) => s.refreshWaiters pa (pa + 12) 4
  | .object _ pa _ _ (.phase _ _ _) => s.refreshWaiters pa (pa + 12) 4
  | _ => s

/-- One group of a cancelled level stops. -/
def State.cancelGroup (s : State) (key : Nat) (g : Group) : State :=
  let s1 := (s.setGroup key g.cancel).leaveObject g.wait
  let s2 := s1.rtkt.foldl (fun s x =>
    match Assoc.find x.2.op s.ops, Assoc.find x.1 s.rtkt with
    | some o, some t => if o.group = key ∧ t.state = 1 then s.dropTicket x.1 t else s
    | _, _ => s) s1
  let stop (c : CopyOp) (id : Nat) : Bool :=
    decide (c.group = key) && c.failed.isNone &&
    (s.services.any (fun v => decide (v.2.waiter = .engine id)) || (c.stalled.isSome && c.slot.isNone))
  let hit := (s2.copies.filter (fun c => stop c.2 c.1)).map (fun c => c.1)
  { s2 with copies := s2.copies.map (fun c : Nat × CopyOp => if hit.contains c.1 then (c.1, { c.2 with failed := some { kind := 0x11 } }) else c) }.endServices
    (fun w => match w with | .engine i => hit.contains i | _ => false)

/-- The records that a unit's groups launched and that have not been admitted: in its queue, and in the ring with their ring index. -/
def State.ringRecords (s : State) (l : Launch) : List (Nat × Nat × List Byte) :=
  match s.overflow l with
  | some (base, cap, head, _) =>
    l.ring.mapIdx (fun i ix => (i, ix, (s.ringRecord l (base + 64 * ((head + i) % cap))).getD []))
  | none => []

/-- The addresses of the entries of a launch's ring that hold records. -/
def State.ringEntries (s : State) (l : Launch) : List Nat :=
  match s.overflow l with
  | some (base, cap, head, _) => (List.range l.ring.length).map (fun i => base + 64 * ((head + i) % cap))
  | none => []

/-- A unit's waiting records are discarded with CANCELLED; the ring's other records close up from OHEAD (02 R36). -/
def State.cancelRecords (s : State) (lid ix : Nat) (l : Launch) (u : LUnit) : State :=
  let recs : List (Nat × Nat × List Byte) := s.ringRecords l
  let keep := recs.filter (fun r => decide (r.2.1 ≠ ix))
  let gone := u.pending.map (fun r => r.record) ++ (recs.filter (fun r => decide (r.2.1 = ix))).map (fun r => r.2.2)
  let s0 := (s.noteWalks l.job l.keymask false (s.ringEntries l)).noteRefusals l.job l.keymask false (s.ringEntries l) (dieOf u.core)
  let s1 := { s0 with
    units := Assoc.put (unitKey lid ix) { u with pending := [] } s.units
    launches := Assoc.modify lid (fun y => { y with ring := keep.map (fun r : Nat × Nat × List Byte => r.2.1) }) s.launches }.endServices
      (fun w => match w with | .child n _ => decide (n = unitKey lid ix) | _ => false)
  let s2 := match s.overflow l with
    | some (base, cap, head, _) =>
      let s' := if keep.length = recs.length then s1
        else (keep.mapIdx (fun i (r : Nat × Nat × List Byte) => (i, r.2.2))).foldl (fun s x => s.deviceStore l.job l.keymask (base + 64 * ((head + x.1) % cap)) 64 (leNat x.2)) s1
      s'.setRingFields l head keep.length
    | none => s1
  State.ringMoves 4 lid (gone.foldl (fun s b => s.discardRecord b lid ix l) s2)

/-- One unit of a cancelled level: its status, its waiting records, or its place among the units never placed. -/
def State.cancelUnit (s : State) (lid ix : Nat) : State :=
  match Assoc.find lid s.launches with
  | none => s
  | some l =>
    let s1 := s.setStatus l.job l.keymask (l.block + 0x20 + 16 * ix) stCancelled
    match Assoc.find (unitKey lid ix) s1.units with
    | some u => if u.retired then s1 else s1.cancelRecords lid ix l u
    | none => s1.skipUnit lid ix

/-- One launch of a cancelled level: discarded when none of its units has been placed; otherwise no more are placed. -/
def State.cancelLaunch (s : State) (lid : Nat) : State :=
  match Assoc.find lid s.launches with
  | none => s
  | some l =>
    if l.placed = 0 then ((List.range l.units).foldl (fun s ix => s.zeroUnit l ix) s).discardLaunch lid stCancelled
    else
      let s1 := { s with launches := Assoc.put lid { l with cancelled := true } s.launches }.setStatus l.job l.keymask l.block stCancelled
      (List.range l.units).foldl (fun s ix => s.cancelUnit lid ix) s1

/-- The statuses of the counters above a cancelled launch, up to the cancelled level. -/
def State.cancelCounters (s : State) (level : Nat) (l : Launch) : State :=
  ([2, 3, 4].filter (fun k => decide (k ≤ level))).foldl (fun s k => s.setStatus l.job l.gmask (l.ctrs.at k) stCancelled) s

/-- The launch that the entry at a queue's head describes. -/
def State.headLaunch (s : State) (q : Nat) : Option Launch :=
  let e := memBytes s.mem (s.ctlNat .sched (qReg q) 8 + 64 * s.ctlNat .sched (qReg q + 0xA) 2) 64
  (s.fetch (fieldOf e 0x28 2) ordinaryKeys (fieldOf e 0 8) 64).map (fun b =>
    launchOf' b (fieldOf e 0x28 2) (BitVec.allOnes 16) q 0
      { graph := fieldOf e 8 8, phase := fieldOf e 0x10 8, jobc := fieldOf e 0x18 8, priorph := fieldOf e 0x20 8 } none)

/-- Whether a waiter belongs to what a cancellation at a level reaches: an admission into it, or an overlay that only its groups await. -/
def State.waiterCancelled (s : State) (level job pa : Nat) : Waiter → Bool
  | .admission q _ =>
    (match s.headLaunch q with
     | some l => decide (2 ≤ level) && decide (l.job = job) && decide (s.levelFlat l level (l.ctrs.at level) = some pa)
     | none => false)
  | .overlay n =>
    (match Assoc.find n s.slots with
     | some t => s.groups.all (fun g => !(decide (g.2.core = n / 4) && decide (g.2.job = t.job) && decide (g.2.code = t.code) &&
         decide (g.2.awaitOverlay = some t.ovl) && !g.2.cancelled))
     | none => true)
  | _ => false

/-- The launches of a level whose records wait for a page at the heads of their submission queues. -/
def State.awaitedLaunches (s : State) (level job pa : Nat) : List Launch :=
  s.services.filterMap (fun x =>
    match x.2.waiter with
    | .admission q i => if s.waiterCancelled level job pa (.admission q i) then s.headLaunch q else none
    | _ => none)

/-- Overlay slots whose load was withdrawn become free. -/
def State.freeWithdrawn (s : State) (level job pa : Nat) : State :=
  let gone := s.services.filterMap (fun x =>
    match x.2.waiter with | .overlay n => if s.waiterCancelled level job pa (.overlay n) then some n else none | _ => none)
  { s with slots := gone.foldl (fun t n => Assoc.del n t) s.slots }

/-- THE CANCELLATION EVENT of a level (02 R36). -/
def State.cancel (s : State) (level job pa : Nat) : State :=
  let x := s.descendants (s.levelAt job level pa)
  let ls := x.launches.filterMap (fun i => Assoc.find i s.launches)
  let gs := s.groupsOf x
  let s1 := { s with cancels := (level, job, pa, s.gen pa) :: s.cancels }
  let s2 := gs.foldl (fun s g => s.cancelGroup g.1 g.2) s1
  let s3 := (ls ++ s.awaitedLaunches level job pa).foldl (fun s l => s.cancelCounters level l) s2
  let s4 := x.units.foldl (fun s u => s.cancelUnit u.1 u.2) s3
  let s5 := x.launches.foldl State.cancelLaunch s4
  (s5.freeWithdrawn level job pa).endServices (s5.waiterCancelled level job pa)

/-- Whether a record whose admission waits for a page belongs to a level.
DEDUCED: log 53. -/
def State.levelAwaited (s : State) (level job pa : Nat) : Bool :=
  s.services.any (fun x => match x.2.waiter with | .admission q i => s.waiterCancelled level job pa (.admission q i) | _ => false)

/-- The result of CANCEL (02 R35). A graph, phase or job counter none of whose launches is admitted or awaits admission now, because the others
are done or stand in a submission ring, is not a live counter: the result is 2, or 1 where the level has completed.
DESIGN CHOICE: log 147. -/
def State.cancelResult (s : State) (level job pa : Nat) : Nat :=
  let x := s.levelAt job level pa
  if x.launches.isEmpty && x.units.isEmpty && !s.levelAwaited level job pa then (if s.finished.contains (level, job, pa, s.gen pa) then 1 else 2)
  else if s.remain pa = 0 then 1 else 0

/-- The address at which a cancellation meets a launch block or an overflow ring that it cannot read and write now: of a page that is
held, or none where a line is shackled. -/
def State.ringWaits (s : State) (l : Launch) : Option (Option Nat) :=
  let look (va : Nat) : Option (Option Nat) :=
    match s.reach l.job l.keymask va true with
    | .held _ => some (some va)
    | .at flat _ => if s.shackled flat then some none else none
    | .refused _ => none
  if l.ring.isEmpty then none
  else
    match look (l.block + 0x10) with
    | some x => some x
    | none => (s.ringEntries l).findSome? look

/-- The first launch whose ring a cancellation of a level cannot clear now. -/
def State.cancelWaits (s : State) (level job pa : Nat) : Option (Option Nat) :=
  let x := s.descendants (s.levelAt job level pa)
  (x.launches ++ x.units.map (fun u => u.1)).findSome? (fun i => (Assoc.find i s.launches).bind s.ringWaits)

/-- CANCEL (15 R357). It waits while an overflow ring that it must clear is held for migration or shackled. A group that cancels its own
level receives the result and stops at the next boundary. -/
def execCancel (d a : BitVec 5) (l : BitVec 3) (q : BitVec 2) (st : BitVec 3) (s : State) : Host.Outcome State Fault Refusal :=
  objectInstr (.cancel d a l q st) s (fun c => c.kpair a) (fun c => c.globalPlace (c.kpair a) false) 16 1 false (fun _ => false)
    (fun c pa =>
      let level := l.toNat
      let r := c.s.cancelResult level c.g.job pa
      match (if r = 0 then c.s.cancelWaits level c.g.job pa else none) with
      | some (some va) => c.hold va true
      | some none => c.withdrawn
      | none =>
      let s1 := c.finish c.s c.g d.toNat (w32 r) st.toNat
      if r = 0 then s1.cancel level c.g.job pa else s1)

end Sys2Proof.Machine
end

