-- ==== Sys2Proof/Machine/Place.lean ====
section
/-! DEFINITION. The placer (03 R57 to R62): candidates and their effective priority, fitting a unit onto a core, the initial state of its
groups (02 R28, 04 R78), and the loads of entry overlays. -/

namespace Sys2Proof.Machine

/-! ### Candidates (03 R57, R58) -/

/-- The next unit of a launch to be placed, units cancelled before placement passed over. -/
def Launch.nextUnit (l : Launch) : Nat :=
  (List.range l.skipped.length).foldl (fun n _ => if l.skipped.contains n then n + 1 else n) l.placed

/-- Whether a launch is eligible and still has units to place. -/
def Launch.placeable (l : Launch) : Bool := !l.held && !l.cancelled && decide (l.nextUnit < l.units)

/-- The candidate of a queue: its earliest eligible launch with units to place; one that has begun placing goes first. -/
def State.candidate (s : State) (q : Nat) : Option (Nat × Launch) :=
  (s.launches.filter (fun x => decide (x.2.queue = q) && x.2.placeable)).foldl
    (fun (o : Option (Nat × Launch)) x =>
      match o with
      | some y =>
        if (decide (y.2.placed = 0) && decide (0 < x.2.placed)) || (decide ((y.2.placed = 0) = (x.2.placed = 0)) && decide (x.2.order < y.2.order))
        then some x else o
      | none => some x) none

/-- The effective priority of a launch. -/
def State.effPriority (s : State) (l : Launch) : Nat := min 7 (l.queue / 8 + l.age / 2 ^ bitsOf (s.ctlNat .sched 0 4) 0 4)

/-- Whether a candidate is considered before another. -/
def State.ahead (s : State) (x y : Nat × Launch) : Bool :=
  decide (s.effPriority y.2 < s.effPriority x.2) || (decide (s.effPriority x.2 = s.effPriority y.2) && decide (x.2.order ≤ y.2.order))

/-- A candidate inserted in the order of consideration. -/
def State.rank (s : State) (x : Nat × Launch) : List (Nat × Launch) → List (Nat × Launch)
  | [] => [x]
  | y :: t => if s.ahead x y then x :: y :: t else y :: s.rank x t

/-- The candidates of all 64 queues in the order of consideration. -/
def State.ranked (s : State) : List (Nat × Launch) := ((List.range 64).filterMap s.candidate).foldl (fun t x => s.rank x t) []

/-! ### Fitting (03 R60) -/

/-- The units that hold an allocation of a core. -/
def State.allocations (s : State) (core : Nat) : List LUnit :=
  (s.units.filter (fun x => decide (x.2.core = core) && s.holdsSpad x.2)).map (fun x => x.2)

/-- Unallocated bytes of a core's scratchpad. -/
def State.freeSpad (s : State) (core : Nat) : Nat := 0x200000 - (s.allocations core).foldl (fun a u => a + u.spadLen) 0

/-- Groups placed on a core. -/
def State.placedOn (s : State) (core : Nat) : List (Nat × Group) := s.groups.filter (fun x => decide (x.2.core = core))

/-- Resident slots that a placement on a core may take: free ones and those of waiting groups, less those that ready swapped-out groups
take first (03 R70, R71). -/
def State.slotsFor (s : State) (core : Nat) : Nat :=
  let gs := s.placedOn core
  let res := (gs.filter (fun x => x.2.resident && !x.2.swapEligible)).length
  let want := (gs.filter (fun x => x.2.wantsSlot)).length
  96 - res - want

/-- The entry overlays of a launch that no slot of a core is bound to. -/
def State.unboundEntries (s : State) (core : Nat) (l : Launch) : List (BitVec 8) :=
  ((l.entries.map (fun e => BitVec.ofNat 8 e.2.2.toNat)).eraseDups).filter (fun o =>
    (s.slotOf core l.job (BitVec.ofNat 64 l.code) o).isNone)

/-- Free overlay slots of a core. -/
def State.freeSlots (s : State) (core : Nat) : Nat := ((List.range 4).filter (fun j => !s.slotBound core j)).length

/-- Whether a unit of a launch fits a core; a ready swapped-out group of the core takes its slot first (03 R71). -/
def State.fits (s : State) (core : Nat) (l : Launch) : Bool :=
  decide (l.spad ≤ s.freeSpad core) && decide (l.groups ≤ s.slotsFor core) && decide ((s.placedOn core).length + l.groups ≤ 192) &&
  decide ((s.unboundEntries core l).length ≤ s.freeSlots core) &&
  !Assoc.get false s.retiredCores core && !Assoc.get false s.draining core &&
  (s.placedOn core).all (fun x => !x.2.wantsSlot)

/-! ### Placing a unit (02 R19, R28; 03 R61, R62; 04 R77, R78; 07 R146) -/

/-- A 2 MiB range of a core's scratchpad addresses that no allocation uses. -/
def State.freeRange (s : State) (core : Nat) : Nat :=
  ((List.range 256).find? (fun r => (s.allocations core).all (fun u => decide (u.spadBase ≠ r * 2 ^ 21)))).getD 0 * 2 ^ 21

/-- Memory, poison and weight marks with an allocation zeroed. -/
def State.zeroSpad (s : State) (core base len : Nat) : State :=
  let lo := paSpad core base
  { s with
    mem := s.mem.filter (fun c => !(decide (lo ≤ c.1) && decide (c.1 < lo + len)))
    poison := s.poison.filter (fun c => !(decide (lo ≤ 64 * c.1) && decide (64 * c.1 < lo + len)))
    marks := s.marks.filter (fun c => !(decide (lo ≤ 256 * c.1) && decide (256 * c.1 < lo + len))) }

/-- An image frame of a core that no placed group occupies, the device's choice. -/
def State.freeFrame (s : State) (core salt : Nat) : Nat :=
  let fs := (List.range 192).filter (fun f => (Assoc.find (groupKey core f) s.groups).isNone)
  fs.getD (Config.freeNat s.fresh salt % fs.length) 0

/-- The partition of a core with the most free resident slots, the lowest of several. -/
def State.emptiest (s : State) (core : Nat) : Nat :=
  (List.range 4).foldl (fun b p => if s.residents (4 * core + p) < s.residents (4 * core + b) then p else b) 0

/-- The group at its entry point (02 R28): `gix` in its unit. -/
def Launch.newGroup (l : Launch) (lid ix gix core frame part age : Nat) (r : Role) (entry : BitVec 32) : Group :=
  { core := core, frame := frame, job := l.job, role := r, part := part, age := age
    live0 := { mask := BitVec.allOnes 32, pc := ⟨BitVec.ofNat 8 entry.toNat, BitVec.ofNat 14 (entry.toNat / 2 ^ 8), false⟩, kind := 1 }
    code := BitVec.ofNat 64 l.code
    wgen := l.wgen, keymask := l.keymask, launchid := w32 lid, unitix := BitVec.ofNat 16 ix
    cluix := BitVec.ofNat 16 (ix / l.perclu), groupix := BitVec.ofNat 8 gix
    k := ((Vector.replicate 32 (0 : Word)).setIfInBounds 0 (w32 l.param.toNat)).setIfInBounds 1 (w32 (l.param.toNat / 2 ^ 32))
    absent := BitVec.ofNat 256 (2 ^ 256 - 2 ^ l.frame)
    zAbsent := if r = .matrix then 0xFF else 0 }

/-- The role and entry word of group `gix` of a unit (02 R19). -/
def Launch.roleAt (l : Launch) (gix : Nat) : Role × BitVec 32 :=
  if gix < l.ncopy then (.copy, l.entcopy) else if gix < l.ncopy + l.nmatrix then (.matrix, l.entmatrix) else (.vector, l.entvector)

/-- A waiting resident group gives up its slot where a placement finds none free. -/
def State.makeRoom (s : State) (core : Nat) : State :=
  if s.residents (4 * core + s.emptiest core) < 24 then s
  else match s.victim core with | some v => { s.mapGroup v Group.swapOut with fresh := s.fresh + 1 } | none => s

/-- GROUP_PLACEMENT of group `gix` of a unit: its loads see what stood before its start (09 R200); an idle matrix unit of a matrix group's
partition is asked to leave idle (03 R72). -/
def State.placeGroup (s : State) (l : Launch) (lid ix core gix : Nat) : State :=
  let s0 := s.makeRoom core
  let part := s0.emptiest core
  let pn := 4 * core + part
  let p := s0.part pn
  let re := l.roleAt gix
  let frame := s0.freeFrame core gix
  let g := l.newGroup lid ix gix core frame part p.nextAge re.1 re.2
  let waits := match s0.overlay g g.live0.pc.ovl with | some t => t.loading.isSome | none => true
  let g1 := { g with
    awaitOverlay := if waits then some g.live0.pc.ovl else none, readyAt := p.cycle, readySince := s.clock
    startAt := s.clock + 2 * (ix % l.perclu)
    order := ({} : Order).raise (BitVec.allOnes 32) 5 s.tick }
  let p1 := { p with nextAge := p.nextAge + 1 }
  let s1 := (s0.setGroup (groupKey core frame) g1).setPart pn p1
  if re.1 = .matrix ∧ p.mu = .idle then s1.setPart pn { p1 with mu := .requested s.clock } else s1

/-- The loads of a placement: each entry overlay that no slot holds is bound to a free slot. -/
def State.bindEntries (s : State) (l : Launch) (lid core : Nat) : State :=
  (s.unboundEntries core l).foldl (fun s o =>
    match s.freeSlot core with
    | some j =>
      let t : Slot := { job := l.job, code := BitVec.ofNat 64 l.code, ovl := o, addr := 0, size := 0, loading := some (.placement lid) }
      { s with slots := Assoc.put (slotKey core j) t s.slots }
    | none => s) s

/-- One unit is placed on a core.
DESIGN CHOICE: log 51. -/
def State.placeUnit (s : State) (lid : Nat) (l : Launch) (ix core : Nat) : State :=
  let base := s.freeRange core
  let s1 := ((s.purgeSlots core).zeroSpad core base l.spad).bindEntries l lid core
  let u : LUnit := { launch := lid, ix := ix, core := core, spadBase := base, spadLen := l.spad, groups := l.groups, live := l.groups }
  let s2 := { s1 with
    units := Assoc.put (unitKey lid ix) u s1.units
    launches := Assoc.modify lid (fun x => { x with placed := ix + 1 }) s1.launches }
  { (List.range l.groups).foldl (fun s g => s.placeGroup l lid ix core g) s2 with fresh := s.fresh + 1 }

/-- The units that one opportunity places for a launch: one, or the rest of a cluster. -/
def Launch.batch (l : Launch) : List Nat :=
  let n := l.nextUnit
  if l.cluen then ((List.range l.perclu).map (fun i => n / l.perclu * l.perclu + i)).filter (fun i => decide (n ≤ i) && !l.skipped.contains i)
  else [n]

/-- Places units one after another on cores of a list, the device choosing among those that fit; none when some unit fits nowhere. -/
def placeAll (lid : Nat) (l : Launch) (cores : List Nat) : List Nat → State → Option State
  | [], s => some s
  | ix :: t, s =>
    let fit := cores.filter (fun c => s.fits c l)
    match fit[Config.freeNat s.fresh ix % fit.length]? with
    | some c => placeAll lid l cores t (s.placeUnit lid l ix c)
    | none => none

/-- Places the next unit or cluster of a launch on a die, where it fits: a cluster on one 16-core block (02 R20, 03 R59). -/
def State.placeNext (s : State) (die lid : Nat) (l : Launch) : Option State :=
  if l.cluen then
    let tries := (List.range 8).filterMap (fun b => placeAll lid l ((List.range 16).map (fun i => 128 * die + 16 * b + i)) l.batch s)
    tries[Config.freeNat s.fresh 64 % tries.length]?
  else placeAll lid l ((List.range 128).map (fun i => 128 * die + i)) l.batch s

/-- Candidates other than the launch placed age by the units placed; its own count returns to 0 (03 R58). -/
def State.ageOthers (s : State) (lid n : Nat) (cs : List Nat) : State :=
  { s with launches := s.launches.map (fun x : Nat × Launch =>
      if x.1 = lid then (x.1, { x.2 with age := 0 }) else if cs.contains x.1 then (x.1, { x.2 with age := x.2.age + n }) else x) }

/-- The placer's choice among ranked candidates (03 R57). -/
def State.tryPlace (s : State) (die : Nat) (all : List Nat) : List (Nat × Launch) → State
  | [] => s
  | (lid, l) :: t =>
    match s.placeNext die lid l with
    | some s1 => s1.ageOthers lid l.batch.length all
    | none => if s.effPriority l = 7 then s else s.tryPlace die all t

/-- PLACEMENT_OPPORTUNITY of one of the two dies (01 R9). -/
def execPlacementOpportunity (s : State) : Host.Outcome State Fault Refusal :=
  let s1 := { s with input := .none }
  match s.input with
  | .one die =>
    if 2 ≤ die then .next s1
    else
      let cs := s.ranked
      let s2 := { s1 with timers := Assoc.set 0 s1.timers (2 + die) s.clock }
      .next (s2.tryPlace die (cs.map (fun x => x.1)) cs)
  | _ => .next s1

/-! ### Overlay loads for placements (03 R62, 14 R333) -/

/-- The groups of a core that await an overlay of a slot's image. -/
def State.awaiting' (s : State) (core : Nat) (t : Slot) : List (Nat × Group) :=
  s.groups.filter (fun x => decide (x.2.core = core) && decide (x.2.job = t.job) && decide (x.2.code = t.code) &&
    decide (x.2.awaitOverlay = some t.ovl))

/-- A load fails: the slot becomes free and each waiting group stops exactly before its entry instruction. A group that a REPLAY left
waiting stops again at its own instruction (10 R235). -/
def State.loadFailed (s : State) (n : Nat) (t : Slot) : State :=
  let s1 := { s with slots := Assoc.del n s.slots }.endServices (fun w => decide (w = Waiter.overlay n))
  (s.awaiting' (n / 4) t).foldl (fun s x =>
    let slot := match x.2.wait with | .replay b _ => b | _ => false
    groupStop (s.setGroup x.1 { x.2 with awaitOverlay := none }) x.1 slot (x.2.live slot).pc (overlayAbsent t.ovl)) s1

/-- A load completes: the slot holds the code, and the waiting groups become ready. -/
def State.loadDone (s : State) (n : Nat) (t : Slot) (addr : Nat) (code : List Byte) : State :=
  let t1 := { t with
    addr := addr, size := code.length, loading := none, poison := []
    bytes := (code.mapIdx (fun i b => (i, b))).filter (fun x : Nat × Byte => decide (x.2 ≠ 0)) }
  let s1 := { s with slots := Assoc.put n t1 s.slots }.endServices (fun w => decide (w = Waiter.overlay n))
  { s1 with
    groups := s1.groups.map (fun x : Nat × Group =>
      if x.2.core = n / 4 ∧ x.2.job = t.job ∧ x.2.code = t.code ∧ x.2.awaitOverlay = some t.ovl then
        (x.1, { x.2 with awaitOverlay := none, readySince := s.clock }) else x)
    ranCopy := Assoc.set false s1.ranCopy (n / 4) true }

/-- The key mask and the launch of a load: of a placement's launch, or of the group that the REPLAY is for. -/
def State.loaderMask (s : State) : Loader → BitVec 16 × Nat
  | .placement lid => ((match Assoc.find lid s.launches with | some l => l.keymask | none => 0), lid)
  | .group key _ => (match Assoc.find key s.groups with | some g => (g.keymask, g.launchid.toNat) | none => (0, 0))
  | .replay key => (match Assoc.find key s.groups with | some g => (g.keymask, g.launchid.toNat) | none => (0, 0))

/-- The load of a slot: its table entry and then its code are read; a page that paging can supply is awaited. -/
def State.runLoad (s : State) (n : Nat) (t : Slot) (ld : Loader) : State :=
  let m := s.loaderMask ld
  let place (va : Nat) : Place := s.devicePlace t.job m.1 va false
  let onFault (s : State) (f : Trap) : State :=
    if f.curable then s.postService 0 (.overlay n) f { jobid := t.job, launchid := m.2 } else (s.noteConfig f t.job).loadFailed n t
  if (s.serviceFailed (.overlay n)).isSome then s.loadFailed n t
  else
    let s1 := s.noteWalks t.job m.1 false (s.tableReads place t.code.toNat t.ovl.toNat)
    match s.tableEntry place t.code.toNat t.ovl.toNat with
    | .refused => s1.loadFailed n t
    | .held => s1
    | .fault f => onFault s1 f
    | .code addr size =>
      let s2 := s1.noteWalks t.job m.1 false ((spanPieces addr size).map (fun p => p.1))
      match s.readVia place addr size with
      | .bytes b => s2.loadDone n t addr b
      | .fault f => onFault s2 f
      | .held => s2

/-- OVERLAY_PLACEMENT_LOAD_DONE of a slot whose load no group issued. -/
def execOverlayPlacementLoadDone (s : State) : Host.Outcome State Fault Refusal :=
  let s1 := { s with input := .none }
  match s.input with
  | .one n =>
    match Assoc.find n s.slots with
    | some t =>
      match t.loading with
      | some (.group _ _) => .next s1
      | some ld => if s.awaiting (.overlay n) then .next s1 else .next (s1.runLoad n t ld)
      | none => .next s1
    | none => .next s1
  | _ => .next s1

end Sys2Proof.Machine
end

