-- ==== Sys2Proof/Machine/Copy.lean ====
section
/-! DEFINITION. The copy engine: COPY, COPY2D, COPYR, GATHER, SCATTER, FILL and OVLD, and the work and completion of their operations
(15 R364 to R367; 16 R385, R393, R394; 17 R434; 18 R449; 08 R178; 07 R160). -/

namespace Sys2Proof.Machine

/-! ### Issue -/

/-- Commands that a core's copy engine holds. -/
def State.commands (s : State) (core : Nat) : Nat := (s.copies.filter (fun x => decide (x.2.core = core))).length

/-- Whether a copy-engine instruction waits at issue: no free command entry, or a full counter. -/
def Ctx.copyWaits (c : Ctx) : Bool := decide (32 ≤ c.s.commands c.g.core) || decide (c.g.ctrCopy = 0xFFFF)

/-- The state with a command of the issuing fragment in its core's copy engine, and the group with CTRCOPY raised. Of the group's accesses, the
operation is ordered after those before it alone (09 R197 row 10, R198).
DESIGN CHOICE: log 10. -/
def Ctx.command (c : Ctx) (s : State) (g : Group) (shape : CopyShape) : State × Group :=
  let op : CopyOp :=
    { group := c.key, core := c.g.core, owner := c.f.mask, po := c.g.po, pcword := c.f.pc.low, shape := shape
      view := c.s.viewOf c.key c.g c.f.mask c.g.po, floor := laneMax c.g.order.floorSys c.f.mask }
  ({ s with
      copies := Assoc.put s.nextId op s.copies, nextId := s.nextId + 1, ranCopy := Assoc.set false s.ranCopy c.g.core true },
    { g.ctrUp .copy with po := c.g.po + 1 })

/-- A copy-engine instruction: at issue only its encoding is checked. -/
def copyInstr (i : Instr) (s : State) (shape : Ctx → CopyShape) : Host.Outcome State Fault Refusal :=
  perform i s (fun _ => []) Ctx.copyWaits (fun _ => []) (fun c =>
    let r := c.command c.s c.g (shape c)
    c.done r.1 (r.2.advance c.slot) 0)

/-- COPY (15 R365). -/
def execCopy (a b c : BitVec 5) (n : BitVec 1) (s : State) : Host.Outcome State Fault Refusal :=
  copyInstr (.copy a b c n) s (fun x => .linear (x.kpair a) (x.kpair b) (x.kf c).toNat)

/-- COPY2D (15 R366). -/
def execCopy2d (a b c : BitVec 5) (n : BitVec 1) (s : State) : Host.Outcome State Fault Refusal :=
  copyInstr (.copy2d a b c n) s (fun x =>
    .rows (x.kpair a) (x.kpair b) (bitsOf (x.kf c).toNat 0 16) (bitsOf (x.kf c).toNat 16 16) (x.k (c.toNat + 1)).toNat (x.k (c.toNat + 2)).toNat)

/-- COPYR (15 R367). -/
def execCopyr (a b c : BitVec 5) (n : BitVec 1) (s : State) : Host.Outcome State Fault Refusal :=
  copyInstr (.copyr a b c n) s (fun x => .ring (x.kf a).toNat (x.kpair b) (x.kf c).toNat)

/-- The operands that GATHER and SCATTER share (16 R393): count, element size exponent, index array, and whether they are refused. -/
def Ctx.indexed (x : Ctx) (c : BitVec 5) : Nat × Nat × Nat × Bool :=
  let w := (x.kf c).toNat
  let idx := pairNat (x.k (c.toNat + 1)) (x.k (c.toNat + 2)) % 2 ^ 56
  (bitsOf w 0 16, bitsOf w 16 4, idx,
    decide (8 < bitsOf w 16 4) || decide (bitsOf w 20 12 ≠ 0) || decide (x.k (c.toNat + 3) ≠ 0) || decide (idx % 4 ≠ 0))

/-- GATHER (16 R394). -/
def execGather (a b c : BitVec 5) (n : BitVec 1) (s : State) : Host.Outcome State Fault Refusal :=
  copyInstr (.gather a b c n) s (fun x =>
    let o := x.indexed c
    .gather (x.kpair a % 2 ^ 56) (x.kpair b % 2 ^ 56) o.1 o.2.1 o.2.2.1 o.2.2.2)

/-- SCATTER (18 R449). -/
def execScatter (a b c : BitVec 5) (n : BitVec 1) (s : State) : Host.Outcome State Fault Refusal :=
  copyInstr (.scatter a b c n) s (fun x =>
    let o := x.indexed c
    .scatter (x.kpair a % 2 ^ 56) (x.kpair b % 2 ^ 56) o.1 o.2.1 o.2.2.1 o.2.2.2)

/-- FILL (16 R385). -/
def execFill (a b c : BitVec 5) (s : State) : Host.Outcome State Fault Refusal :=
  copyInstr (.fill a b c) s (fun x => .fill (x.kpair a) (x.kf b).toNat (x.kf c).toNat)

/-- The overlay-table entry that OVLD names, read by the group with its launch's translation and key mask. -/
def Ctx.ovldEntry (c : Ctx) (j : Nat) : TableEntry := c.s.tableEntry (fun va => c.globalPlace va false) c.g.code.toNat j

/-- The trap of a reading of the table: a fault that paging serves, or one of the windows, stops the group as it is, and any other failure is
that of an absent overlay (14 R333).
DEDUCED: log 148. -/
def Ctx.ovldTraps (c : Ctx) (j : BitVec 8) : List Trap :=
  match c.ovldEntry j.toNat with
  | .refused => [overlayAbsent j]
  | .fault t => if t.kind = 0x08 ∨ t.curable = true then [t] else [{ overlayAbsent j with cfg := t.cfg }]
  | _ => []

/-- The state with the translations of a reading of the table recorded. -/
def Ctx.ovldReads (c : Ctx) (j : Nat) : State :=
  c.useAll false ((c.s.tableReads (fun va => c.globalPlace va false) c.g.code.toNat j).map (fun va =>
    ({ lane := 0, va := va, place := c.globalPlace va false } : Checked)))

/-- OVLD (17 R434). -/
def execOvld (d : BitVec 5) (im : BitVec 8) (st : BitVec 3) (s : State) : Host.Outcome State Fault Refusal :=
  perform (.ovld d im st) s (fun _ => []) Ctx.copyWaits
    (fun c => c.ovldTraps im)
    (fun c0 =>
      let c := { c0 with s := c0.ovldReads im.toNat }
      match c0.ovldEntry im.toNat with
      | .held => c.hold c.g.code.toNat false
      | .code addr size =>
        let g0 := { c.g with hold := none }
        let s0 := c.s.setGroup c.key g0
        match s0.slotOf c.g.core c.g.job c.g.code im, s0.freeSlot c.g.core with
        | some j, _ => c.finish c.s { g0 with hold := some j } d.toNat 1 st.toNat
        | none, some j =>
          let t : Slot :=
            { job := c.g.job, code := c.g.code, ovl := im, addr := addr, size := size, loading := some (.group c.key c.f.pc.low) }
          let r := c.command { c.s with slots := Assoc.put (slotKey c.g.core j) t (s0.purgeSlots c.g.core).slots } { g0 with hold := some j }
            (.overlay (slotKey c.g.core j) addr size)
          c.finish r.1 r.2 d.toNat 0 st.toNat
        | none, none => c.finish c.s g0 d.toNat 2 st.toNat
      | _ => c.withdrawn)

/-! ### What an operation moves -/

/-- Where a destination byte comes from. -/
inductive Source where
  | mem (va : Nat)
  | const (b : Byte)
  /-- The index of the element has not been read. -/
  | unknown
  deriving DecidableEq, Repr

/-- A byte of an operation's buffer, by source address. -/
def CopyOp.got (o : CopyOp) (va : Nat) : Option Byte := Assoc.find va o.buf

/-- The index of element `e`, when all its bytes have been read. -/
def CopyOp.index (o : CopyOp) (idx e : Nat) : Option Nat :=
  (List.range 4).foldl (fun r j =>
    match r, o.got (idx + 4 * e + j) with
    | some x, some b => some (x + b.toNat * 2 ^ (8 * j))
    | _, _ => none) (some 0)

/-- The flat address of a COPYR's ring descriptor. -/
def State.copyRing (s : State) (o : CopyOp) (desc : Nat) : Option Nat :=
  match Assoc.find o.group s.groups with
  | some g => (s.unitOf g).map (fun u => paSpad u.core (u.spadBase + desc))
  | none => none

/-- The window address of the slot that a COPYR has acquired. -/
def State.copySlotVa (s : State) (o : CopyOp) (desc : Nat) : Nat :=
  match s.copyRing o desc with
  | some pa => let r := s.stageRing pa; spadVa (r.base + 256 * r.slotsz * o.slot.getD 0)
  | none => 0

/-- The bytes an operation moves: destination and source. -/
def State.moves (s : State) (o : CopyOp) : List (Nat × Source) :=
  match o.shape with
  | .linear dst src len => (List.range len).map (fun i => (dst + i, .mem (src + i)))
  | .rows dst src rowLen count sp dp =>
    (List.range count).flatMap (fun r => (List.range rowLen).map (fun i => (dst + r * dp + i, .mem (src + r * sp + i))))
  | .ring desc src len => (List.range len).map (fun i => (s.copySlotVa o desc + i, .mem (src + i)))
  | .gather dst base count size idx _ =>
    (List.range count).flatMap (fun e => (List.range (2 ^ size)).map (fun j =>
      (dst + e * 2 ^ size + j, match o.index idx e with | some x => .mem (base + x * 2 ^ size + j) | none => .unknown)))
  | .scatter base src count size idx _ =>
    (List.range count).flatMap (fun e =>
      match o.index idx e with
      | some x => (List.range (2 ^ size)).map (fun j => (base + x * 2 ^ size + j, .mem (src + e * 2 ^ size + j)))
      | none => [])
  | .fill dst pattern len =>
    (List.range len).map (fun i => (dst + i, .const (BitVec.ofNat 8 (pattern / 2 ^ (8 * ((dst + i) % 4))))))
  | .overlay _ _ _ => []

/-- The addresses of the index array. -/
def CopyOp.indexBytes (o : CopyOp) : List Nat :=
  match o.shape with
  | .gather _ _ count _ idx _ => (List.range (4 * count)).map (fun i => idx + i)
  | .scatter _ _ count _ idx _ => (List.range (4 * count)).map (fun i => idx + i)
  | _ => []

/-- The source addresses known so far. -/
def State.sources (s : State) (o : CopyOp) : List Nat :=
  match o.shape with
  | .overlay _ src size => (List.range size).map (fun i => src + i)
  | _ => o.indexBytes ++ (s.moves o).filterMap (fun m => match m.2 with | .mem va => some va | _ => none)

/-- The source sectors still to be read, lowest first of the index array. -/
def State.unread (s : State) (o : CopyOp) : List Nat :=
  ((s.sources o).filter (fun va => (o.got va).isNone)).map (fun va => va / 64) |>.eraseDups

/-- The destination sectors still to be written. -/
def State.unwritten (s : State) (o : CopyOp) : List Nat :=
  (((s.moves o).map (fun m => m.1 / 64)).eraseDups).filter (fun k => !Assoc.get false o.done k)

/-- The place of an operation's address: its group's windows, translation and key mask; OVLD reads global memory alone (17 R434). -/
def State.copyPlace (s : State) (o : CopyOp) (va : Nat) (write : Bool) : Place :=
  match Assoc.find o.group s.groups with
  | some g =>
    (match o.shape with
     | .overlay _ _ _ => s.globalPlace g va write
     | _ => s.place g none va write)
  | none => .fault (windowFault va write)

/-- The state after an operation has reached an address of this module: its translation recorded, and the spill region that it lies in
marked (04 R83). -/
def State.copyReach (s : State) (o : CopyOp) (va : Nat) (write : Bool) (f : Option Found) : State :=
  match Assoc.find o.group s.groups, f with
  | some g, some x => (s.useTranslation g.core g.job (transVa va) write x).noteSpill g.job (transVa va)
  | _, _ => s

/-- An operation with an access to flat addresses at position `t`. -/
def CopyOp.see (o : CopyOp) (t : Nat) (flats : List Nat) (store : Bool) : CopyOp :=
  { o with seen := (runs flats).map (fun r => { lo := r.1, len := r.2, time := t, store := store }) ++ o.seen }

/-- The moment from which an operation reads bytes of this module, through a translation where there is one: what stood before the operation at
its issue, the latest move of memory contents, and the latest change of the translation (09 R198, R202). -/
def State.copyFloor (s : State) (o : CopyOp) (as : List Nat) (f : Option Found) : Nat :=
  let since := match f with | some x => if x.cached then 0 else s.lastWrite (addrsFrom x.pte 8) | none => 0
  max (max (seenOf o.view.seen (BitVec.allOnes 32) as) o.floor) (max s.base since)

/-- Whether an access that stands before an operation, to bytes that the operation accesses (all bytes where none are given), has still to take
effect (09 R197 row 10, R202). -/
def State.copyHeld (s : State) (o : CopyOp) (as : Option (List Nat)) : Bool := o.view.debts.any (fun d => s.openOn d as)

/-- Whether an operation's operands are refused when the engine reaches it (16 R394, 18 R449). -/
def CopyOp.refused (o : CopyOp) : Bool :=
  match o.shape with | .gather _ _ _ _ _ b => b | .scatter _ _ _ _ _ b => b | _ => false

/-- The flat spans of an operation's sources, for the overlap rule. -/
def State.sourceFlats (s : State) (o : CopyOp) : List Nat :=
  (s.sources o).filterMap (fun va => match s.copyPlace o va false with | .here f _ => some f | _ => none)

/-- The byte that an operation writes at a destination: one source; of several rows a free value; of several elements the one that the
device chooses for the sector; a byte that overlaps the source is a free value. -/
def State.moved (s : State) (o : CopyOp) (srcFlats : List Nat) (ms : List (Nat × Source)) (dst : Nat) : Option Byte :=
  let ss := (ms.filter (fun m => decide (m.1 = dst))).map (fun m => m.2)
  let free := Config.freeByte s.fresh dst
  let one (x : Source) : Option Byte := match x with | .mem va => o.got va | .const b => some b | .unknown => none
  let overlaps : Bool := match s.copyPlace o dst true with | .here f _ => srcFlats.contains f | _ => false
  if overlaps then some free
  else
    match ss with
    | [x] => one x
    | _ =>
      match o.shape with
      | .scatter .. => (ss[Config.freeNat s.fresh (dst / 64) % ss.length]?).bind one
      | _ => some free

/-- The bytes of one destination sector, when all its sources have been read.
DEDUCED: log 55. -/
def State.sectorBytes (s : State) (o : CopyOp) (sec : Nat) : Option (List (Nat × Byte)) :=
  let ms := (s.moves o).filter (fun m => decide (m.1 / 64 = sec))
  let flats := s.sourceFlats o
  let dsts := (ms.map (fun m => m.1)).eraseDups
  let bs := dsts.map (fun d => (d, s.moved o flats ms d))
  if bs.all (fun x => x.2.isSome) then some (bs.map (fun x => (x.1, x.2.getD 0))) else none

/-! ### Weight data (07 R160) -/

/-- The source bytes of a destination sector that carry weight data: address and cause. -/
def State.hotSources (s : State) (o : CopyOp) (sec : Nat) : List (Nat × BitVec 4) :=
  ((s.moves o).filter (fun m => decide (m.1 / 64 = sec))).filterMap (fun m =>
    match m.2 with
    | .mem va => (Assoc.find (va / 64) o.hot).map (fun c => (va, c))
    | _ => none)

/-- Whether a destination refuses weight data: a global page whose key is not 1, here or on another chip. -/
def refusesWeights (p : Place) : Bool :=
  match p with
  | .here flat _ => decide (flat < 2 ^ 52)
  | .chip _ _ => true
  | _ => false

/-- The refusal of an operation: the lowest source byte whose transfer is refused. -/
def State.weightRefusal (s : State) (o : CopyOp) : Option Trap :=
  let bad := (s.unwritten o).flatMap (fun sec => if refusesWeights (s.copyPlace o (sec * 64) true) then s.hotSources o sec else [])
  match bad with
  | [] => none
  | x :: t =>
    let low := t.foldl (fun (m : Nat × BitVec 4) y => if y.1 < m.1 then y else m) x
    some { kind := 0x07, cause := low.2, addr := low.1 }

/-! ### One access of an operation -/

/-- What an attempt at an access, or at several one after another, gives: the state and the operation after what was done. -/
inductive Attempt where
  | ok (s : State) (o : CopyOp)
  | waits (s : State) (o : CopyOp)
  | fails (t : Trap)
  deriving DecidableEq, Repr

/-- The report of a service request of a group's engine operation. -/
def State.engineReport (s : State) (o : CopyOp) : Report :=
  match Assoc.find o.group s.groups with
  | some g => { jobid := g.job, core := g.core, frame := g.frame, launchid := g.launchid.toNat, faultword := 2 ^ 13, pcword := o.pcword.toNat, groupix := g.groupix.toNat }
  | none => {}

/-- A fault met by an operation: one that paging can cure is served while it waits (10 R504), any other is a failure. -/
def State.engineFault (s : State) (id : Nat) (o : CopyOp) (t : Trap) : Attempt :=
  if t.curable then .waits (s.postService (dieOf o.core) (.engine id) t (s.engineReport o)) o else .fails t

/-- The request of a remote part. -/
def State.sendPart (s : State) (id acc : Nat) (o : CopyOp) (chip : Nat) (kind : AccessKind) : State :=
  match Assoc.find o.group s.groups with
  | none => s
  | some g =>
    let m : MemOp := { group := o.group, owner := o.owner, po := o.po, pcword := o.pcword, accs := [] }
    s.sendRequest (s.requestOf g id acc m chip kind none)

/-- Whether a remote part may be sent: its chip is a member, its page has no known ticket and its plane index is settled. -/
def State.partReady (s : State) (o : CopyOp) (chip off : Nat) : Bool :=
  match Assoc.find o.group s.groups with
  | some _ => (s.knownTicket chip (off / 2 ^ 16)).isNone && (Assoc.find (planeIndex off) s.planeNow).isNone
  | none => false

/-- One source sector is read: of this module's memory, its bytes as they stood after a moment that the order of the operation leaves it.
DESIGN CHOICE: log 10. DESIGN CHOICE: log 54. -/
def State.readSector (s : State) (id : Nat) (o : CopyOp) (sec : Nat) : Attempt :=
  let vas := ((s.sources o).filter (fun va => decide (va / 64 = sec) && (o.got va).isNone)).eraseDups
  match vas with
  | [] => .ok s o
  | va0 :: _ =>
    match s.copyPlace o va0 false with
    | .fault t => s.engineFault id o t
    | .held _ => .waits s o
    | .chip c off =>
      if o.sent.contains (2 * sec) || !s.partReady o c off || s.copyHeld o none then .waits s o
      else
        let cells := vas.map (fun va => (off + va - va0, va % 64))
        .ok (s.sendPart id (2 * sec) o c (.read cells)) { o with sent := 2 * sec :: o.sent }
    | .here flat f =>
      let as := vas.map (fun va => flat + va - va0)
      if s.copyHeld o (some as) then .waits s o
      else if s.poisoned flat then .fails { kind := 0x0F, cause := 1, addr := va0 }
      else
        let floor := s.copyFloor o as f
        let r := s.readMoment as floor (2 ^ 60 + sec)
        let cause : Option (BitVec 4) :=
          match f with
          | some x => if pteKey x.entry = 1 then some 1 else none
          | none => if s.marked flat then some 3 else none
        .ok ((s.copyReach o va0 false f).noteRead as r) { o.see (s.loadAt as floor r) as false with
          buf := vas.foldl (fun t va => Assoc.put va (s.pastByte (flat + va - va0) r) t) o.buf
          hot := match cause with | some c => Assoc.put sec c o.hot | none => o.hot }

/-- Whether a load of a vector-role group that has been checked has still to read a line (07 R160). -/
def State.vectorReads (s : State) (line : Nat) : Bool :=
  s.ops.any (fun o =>
    (match Assoc.find o.2.group s.groups with | some g => decide (g.role = .vector) | none => false) &&
    o.2.accs.any (fun a => a.2.chip.isNone && !a.2.writes && a.2.addrs.any (fun x => decide (x / 256 = line))))

/-- Whether an operation has written a sector of a scratchpad line. -/
def State.hasWritten (s : State) (o : CopyOp) (line : Nat) : Bool :=
  o.done.any (fun k => match s.copyPlace o (64 * k.1) true with | .here f _ => decide (f / 256 = line) | _ => false)

/-- Whether a matrix operation has written a sector of a scratchpad line. -/
def MatrixOp.hasWritten (o : MatrixOp) (line : Nat) : Bool := o.written.any (fun k => decide (o.flat (64 * k.1) / 256 = line))

/-- A scratchpad line takes weight data from an operation: it is marked, and other operations that have written a part of it do not clear
the mark when they have covered it. -/
def State.markLine (s : State) (id line : Nat) : State :=
  { s with
    marks := Assoc.set false s.marks line true
    ops := s.ops.map (fun o : Nat × MemOp =>
      if o.2.whole.contains line && decide ((o.2.accs.filter (fun a => a.2.addrs.any (fun x => decide (x / 256 = line)))).length < 4)
      then (o.1, { o.2 with whole := o.2.whole.filter (fun x => decide (x ≠ line)) }) else o)
    copies := s.copies.map (fun c : Nat × CopyOp =>
      if c.1 ≠ id ∧ s.hasWritten c.2 line = true then (c.1, { c.2 with remarked := line :: c.2.remarked }) else c)
    groups := s.groups.map (fun x : Nat × Group =>
      match x.2.matrixOp with
      | some m => if m.hasWritten line then (x.1, { x.2 with matrixOp := some { m with remarked := line :: m.remarked } }) else x
      | none => x) }

/-- Whether an operation has now covered the scratchpad line of a destination whole, without weight data and without a mark that another agent
has set meanwhile: the line loses its mark (07 R160). -/
def State.covers (s : State) (o : CopyOp) (dst line : Nat) : Bool :=
  let ms := (s.moves o).filter (fun m => decide (m.1 / 256 = dst / 256))
  !o.remarked.contains line &&
  (List.range 256).all (fun i => ms.any (fun m => decide (m.1 % 256 = i))) &&
  ms.all (fun m => Assoc.get false o.done (m.1 / 64) &&
    (match m.2 with | .mem va => (Assoc.find (va / 64) o.hot).isNone | .const _ => true | .unknown => false))

/-- Whether a store of an operation meets what its group's earlier matrix instruction has still to read (07 R158). -/
def State.copyReads (s : State) (o : CopyOp) (as : List Nat) : Bool :=
  match Assoc.find o.group s.groups with
  | some g => (match g.matrixOp with | some m => decide (m.po < o.po) && g.readsStill as | none => false)
  | none => false

/-- One destination sector is written, whole, once all indices have been read. Weight data marks a scratchpad line that it is written to, once the
loads of vector-role groups that were checked before have read it.
DESIGN CHOICE: log 128. -/
def State.writeSector (s : State) (id : Nat) (o : CopyOp) (sec : Nat) : Attempt :=
  match (if o.indexBytes.all (fun a => (o.got a).isSome) then s.sectorBytes o sec else none) with
  | none => .waits s o
  | some [] => .ok s { o with done := Assoc.put sec true o.done }
  | some (c0 :: cs) =>
    let hot := s.hotSources o sec
    match s.copyPlace o c0.1 true with
    | .fault t => s.engineFault id o t
    | .held _ => .waits s o
    | .chip c off =>
      if !hot.isEmpty || o.sent.contains (2 * sec + 1) || !s.partReady o c off || s.copyHeld o none then .waits s o
      else
        let cells := (c0 :: cs).map (fun x => (off + x.1 - c0.1, x.2))
        .ok (s.sendPart id (2 * sec + 1) o c (.write cells)) { o with sent := (2 * sec + 1) :: o.sent }
    | .here flat f =>
      let cells := (c0 :: cs).map (fun x => (flat + x.1 - c0.1, x.2))
      let as := cells.map (fun x => x.1)
      if (!hot.isEmpty && decide (flat < 2 ^ 52)) || s.shackled flat || (!hot.isEmpty && s.vectorReads (flat / 256)) ||
          s.copyHeld o (some as) || s.copyReads o as then .waits s o
      else
        let s2 := (s.copyReach o c0.1 true f).softwareStore cells
        let o1 := { o.see s.tick as true with done := Assoc.put sec true o.done }
        let s3 := if !hot.isEmpty then s2.markLine id (flat / 256)
          else if 2 ^ 52 ≤ flat ∧ s2.covers o1 c0.1 (flat / 256) = true then s2.clearMarks [flat / 256] else s2
        .ok s3 o1

/-- Attempts one after another until one waits or fails. -/
def attempts (f : State → CopyOp → Nat → Attempt) : List Nat → State → CopyOp → Attempt
  | [], s, o => .ok s o
  | k :: t, s, o =>
    match f s o k with
    | .ok s1 o1 => attempts f t s1 o1
    | x => x

/-! ### Progress and completion -/

/-- Whether the engine may work on an operation: no COPYR ahead of it on the core still lacks its slot (08 R178). -/
def State.copyReady (s : State) (id : Nat) (o : CopyOp) : Bool :=
  s.copies.all (fun x => !(decide (x.1 < id) && decide (x.2.core = o.core) && x.2.slot.isNone && x.2.failed.isNone &&
    (match x.2.shape with | .ring _ _ _ => true | _ => false)))

/-- What stands before the end of an operation: its accesses, and what stood before it at its issue. -/
def CopyOp.published (o : CopyOp) : View := o.view.join { seen := o.seen.map (fun x => { x with owner := BitVec.allOnes 32 }) }

/-- A COPYR publishes the slot that it acquired, by the RPUB step: a release at unit scope of the copied data. Without a slot it leaves the ring,
whose other waiters may proceed. -/
def State.copyPublish (s : State) (o : CopyOp) : State :=
  match o.shape, o.slot with
  | .ring desc _ _, some i =>
    (match s.copyRing o desc with
     | some pa =>
       (match (s.stageRing pa).publish i, Assoc.find o.group s.groups with
        | some (_, r), some g =>
          ((s.tell g pa 32 (publishEvent i) 1 false o.published).setStageRing pa r).wakeRing pa
        | _, _ => s)
     | none => s)
  | .ring desc _ _, none => (match s.copyRing o desc with | some pa => s.wakeRing pa | none => s)
  | _, _ => s

/-- An operation ends: CTRCOPY falls, a failure is left pending, a COPYR publishes its slot. Its core's copy engine has worked up to now
(03 R74). -/
def State.copyOver (s : State) (id : Nat) (o : CopyOp) (t : Option Trap) : State :=
  let s1 := { s with copies := Assoc.del id s.copies, fresh := s.fresh + 1, ranCopy := Assoc.set false s.ranCopy o.core true }.endServices (fun w => decide (w = Waiter.engine id))
  let s2 := s1.mapGroup o.group (fun g =>
    let g1 := (g.ctrDown .copy).engineDone 0 o.seen
    match t with | some x => g1.addFailure .copy x o.pcword | none => g1)
  let job := match Assoc.find o.group s.groups with | some g => g.job | none => 0
  let s3 := match t with | some x => s2.noteConfig x job (dieOf o.core) | none => s2
  s3.copyPublish o

/-- An OVLD fails: its slot becomes free, and every hold on it is released (17 R434). -/
def State.ovldFailed (s : State) (id n : Nat) (o : CopyOp) (t : Trap) : State :=
  let s1 := match Assoc.find n s.slots with | some x => s.loadFailed n x | none => s
  { s1 with groups := s1.groups.map (fun x : Nat × Group =>
      if x.2.core = n / 4 ∧ x.2.hold = some (n % 4) then (x.1, { x.2 with hold := none }) else x) }.copyOver id o (some t)

/-- The load of an OVLD: the sectors not read yet are read, and then the slot holds the code. -/
def State.ovldRun (s : State) (id n addr size : Nat) (o : CopyOp) : State :=
  match Assoc.find n s.slots with
  | some t =>
    (match attempts (fun s o k => s.readSector id o k) (s.unread o) s o with
     | .fails x => s.ovldFailed id n o x
     | .waits s1 o1 => { s1 with copies := Assoc.put id o1 s1.copies }
     | .ok s1 o1 =>
       if (s1.unread o1).isEmpty then
         (s1.loadDone n t addr ((List.range size).map (fun i => (o1.got (addr + i)).getD 0))).copyOver id o1 none
       else { s1 with copies := Assoc.put id o1 s1.copies })
  | none => s.copyOver id o none

/-- The remaining work of an operation: what is unread is read, what is unwritten is written, and then it ends. -/
def State.copyRun (s : State) (id : Nat) (o : CopyOp) : State :=
  let keep (s : State) (o : CopyOp) : State := { s with copies := Assoc.put id o s.copies }
  if o.refused then s.copyOver id o (some { kind := 0x01 })
  else
    match attempts (fun s o k => s.readSector id o k) ((o.indexBytes.map (fun a => a / 64)).eraseDups) s o with
    | .fails t => s.copyOver id o (some t)
    | .waits s1 o1 => keep s1 o1
    | .ok s0 o0 =>
      match attempts (fun s o k => s.readSector id o k) (s0.unread o0) s0 o0 with
      | .fails t => s0.copyOver id o0 (some t)
      | .waits s1 o1 => keep s1 o1
      | .ok s1 o1 =>
        if !(s1.unread o1).isEmpty then keep s1 o1
        else
          match s1.weightRefusal o1 with
          | some t => s1.copyOver id o1 (some t)
          | none =>
            match attempts (fun s o k => s.writeSector id o k) (s1.unwritten o1) s1 o1 with
            | .fails t => s1.copyOver id o1 (some t)
            | .waits s2 o2 => keep s2 o2
            | .ok s2 o2 => if (s2.unwritten o2).isEmpty && o2.sent.isEmpty then s2.copyOver id o2 none else keep s2 o2

/-- COPY_ENGINE_OP_COMPLETE of an operation: it does what remains of its work and completes or fails; while a page or another chip's
answer is awaited it stays. -/
def execCopyEngineOpComplete (s : State) : Host.Outcome State Fault Refusal :=
  let s1 := { s with input := .none }
  match s.input with
  | .one id =>
    match Assoc.find id s.copies with
    | some o =>
      match o.failed, o.shape with
      | some t, .overlay n _ _ => .next (s1.ovldFailed id n o t)
      | some t, _ => .next (s1.copyOver id o (some t))
      | none, .overlay n addr size =>
        if s.copyReady id o && !s.awaiting (.engine id) then
          match s.serviceFailed (.engine id) with
          | some t => .next (s1.ovldFailed id n o t)
          | none => .next (s1.ovldRun id n addr size o)
        else .next s1
      | none, sh =>
        let lacks : Bool := match sh with | .ring _ _ _ => o.slot.isNone | _ => false
        if s.copyReady id o && !lacks && !s.awaiting (.engine id) then
          match s.serviceFailed (.engine id) with
          | some t => .next (s1.copyOver id o (some t))
          | none => .next (s1.copyRun id o)
        else .next s1
    | none => .next s1
  | _ => .next s1

/-- One access of a copy-engine operation: the read (even) or the write (odd) of sector `n / 2`. -/
def State.copyEffect (s : State) (id n : Nat) (o : CopyOp) : State :=
  let r := if n % 2 = 0 then s.readSector id o (n / 2)
    else if (s.unwritten o).contains (n / 2) then s.writeSector id o (n / 2) else .waits s o
  let lacks : Bool := match o.shape with | .ring _ _ _ => o.slot.isNone | _ => false
  if s.copyReady id o && !o.refused && o.failed.isNone && !lacks && !s.awaiting (.engine id) then
    match r with
    | .ok s1 o1 => { s1 with copies := Assoc.put id o1 s1.copies, fresh := s1.fresh + 1 }
    | .waits s1 o1 => { s1 with copies := Assoc.put id o1 s1.copies }
    | .fails t => (match o.shape with | .overlay k _ _ => s.ovldFailed id k o t | _ => s.copyOver id o (some t))
  else s

/-- What stands before an operation that has acquired slot `i` of a ring: also what the releases of the slot carry (09 R200). -/
def State.slotView (s : State) (o : CopyOp) (pa i : Nat) : View :=
  (s.eventMessages pa (releaseEvent i)).foldl (fun v m => v.join m.view) o.view

/-- The failure of a COPYR's descriptor or length (15 R367). -/
def State.copyrFault (s : State) (o : CopyOp) (desc len : Nat) : Option Trap :=
  match Assoc.find o.group s.groups with
  | none => none
  | some g =>
    match s.unitOf g with
    | none => some (windowFault (spadVa desc) true)
    | some u =>
      if desc % 32 ≠ 0 then some (misaligned (spadVa desc) true)
      else if u.spadLen ≤ desc then some (windowFault (spadVa desc) true)
      else
        let r := s.stageRing (paSpad u.core (u.spadBase + desc))
        if r.valid u.spadLen = false ∨ len = 0 ∨ 256 * r.slotsz < len then some (windowFault (spadVa desc) true)
        else if u.groupLost = true ∧ r.free = 0 then some { kind := 0x11 }
        else none

/-- COPYR_SLOT_ACQUIRE: the engine has reached a COPYR. A refused descriptor fails; with a free slot the slot is acquired by the RACQ
step; otherwise the engine stalls on the command. -/
def execCopyrSlotAcquire (s : State) : Host.Outcome State Fault Refusal :=
  let s1 := { s with input := .none }
  match s.input with
  | .one id =>
    match Assoc.find id s.copies with
    | some o =>
      match o.shape with
      | .ring desc _ len =>
        if s.copyReady id o && o.slot.isNone && o.failed.isNone then
          match s.copyrFault o desc len, s.copyRing o desc with
          | some t, _ => .next (s1.copyOver id o (some t))
          | none, some pa =>
            match (s.stageRing pa).acquire with
            | some (i, r) =>
              let s2 := s1.setStageRing pa r
              let o1 := { o with slot := some i, stalled := none, view := s.slotView o pa i }
              .next ({ s2 with copies := Assoc.put id o1 s2.copies }.wakeRing pa)
            | none =>
              if o.stalled.isSome then .next s1
              else .next { s1 with copies := Assoc.put id { o with stalled := some s1.nextId } s1.copies, nextId := s1.nextId + 1 }
          | none, none => .next s1
        else .next s1
      | _ => .next s1
    | none => .next s1
  | _ => .next s1

/-- ACCESS_TAKES_EFFECT of an access: of a memory operation, of a copy-engine operation, or of the matrix operation of a group (named by
2^40 plus its key), whose source line `n` is shackled or whose output sector `n` is written; with 2^50, of the device to the WAITERS that a
shackle has held back; with one number, of the device to a completion counter. -/
def State.takeEffect (s : State) (id n : Nat) : State :=
  match Assoc.find id s.ops, Assoc.find id s.copies with
  | some _, _ => s.memoryEffect id n
  | none, some o => s.copyEffect id n o
  | none, none =>
    match Assoc.find (id - 2 ^ 40) s.groups with
    | some g =>
      (match g.matrixOp with
       | some o => if 2 ^ 40 ≤ id && s.engineReady (id - 2 ^ 40) o.po (BitVec.allOnes 32) then s.matrixEffect (id - 2 ^ 40) g o n else s
       | none => s)
    | none => if id = 2 ^ 50 then s.flushWaiters else s

/-- ACCESS_TAKES_EFFECT. -/
def execAccessTakesEffect (s : State) : Host.Outcome State Fault Refusal :=
  let s1 := { s with input := .none }
  match s.input with
  | .two id n => .next (s1.takeEffect id n)
  | .one id => (match Assoc.find id s.devq with | some a => .next (s1.retryDevice id a) | none => .next s1)
  | _ => .next s1

end Sys2Proof.Machine
end

