-- ==== Sys2Proof/Machine/Fetch.lean ====
section
/-! DEFINITION. Fetching the instruction at issue from its overlay slot (14 R309, R325; 10 R223), and placing an instruction where the
next fetch finds it. -/

namespace Sys2Proof.Machine

/-- What a fetch gives. -/
inductive Fetched where
  /-- An instruction of the overlay. -/
  | instr (i : Instr)
  /-- The slot's load is in progress: the group is not ready (03 R64). -/
  | loading
  /-- A trap at a program counter: an absent overlay, a fetch past the last word, or a word that encodes no instruction. -/
  | trap (t : Trap) (pc : Pc)
  deriving DecidableEq, Repr

/-- The four bytes of word `n` of an overlay slot. -/
def Slot.word (t : Slot) (n : Nat) : List Byte := (List.range 4).map (fun j => Assoc.get 0 t.bytes (4 * n + j))

/-- The program counter of an overlay's last word. -/
def Slot.lastPc (t : Slot) : Pc := ⟨t.ovl, BitVec.ofNat 14 (t.size / 4 - 1), false⟩

/-- The illegal-instruction trap of a sequential fetch past an overlay's last word. -/
def pastEnd : Trap := { kind := 0x01, cause := 1 }

/-- The poison fault of a fetch from a poisoned sector of the instruction store.
DEDUCED: log 155. -/
def poisonedCode : Trap := { kind := 0x0F, cause := 1 }

/-- The word at a program counter of a bound slot. -/
def Slot.fetch (t : Slot) (pc : Pc) : Fetched :=
  if t.loading.isSome then .loading
  else if pc.past || decide (t.size / 4 ≤ pc.off.toNat) then .trap pastEnd t.lastPc
  else if t.poison.contains (pc.off.toNat / 16) then .trap poisonedCode pc
  else
    match decode (t.word pc.off.toNat) with
    | .ok (i, _) => .instr i
    | .error _ => .trap illegal pc

/-- The next instruction of the group at issue. -/
def Ctx.fetch (c : Ctx) : Fetched :=
  match c.s.overlay c.g c.f.pc.ovl with
  | none => .trap (overlayAbsent c.f.pc.ovl) c.f.pc
  | some t => t.fetch c.f.pc

/-- The bytes of an instruction word, as an overlay slot holds them. -/
def slotBytes (w : Nat) : List (Nat × Byte) := (bytesOfWord w).mapIdx (fun i b => (i, b)) |>.filter (fun x => decide (x.2 ≠ 0))

/-- A role that may issue the instruction a word encodes (02 R23). -/
def roleFor (w : Nat) : Role :=
  match decodeTableWord 32 w with
  | some i =>
    (match (shapeOf { core := 0, frame := 0, job := 1, role := .vector, part := 0 } i).roles with
     | r :: _ => r
     | [] => .vector)
  | none => .vector

/-- A group of a role placed in frame 0 of core 0, one fragment of all lanes at word 0 of overlay 0. -/
def loadedGroup (r : Role) : Group :=
  { core := 0, frame := 0, job := 1, role := r, part := 0
    live0 := { mask := BitVec.allOnes 32, pc := ⟨0, 0, false⟩, kind := 1 } }

end Sys2Proof.Machine
end

