-- ==== Sys2Proof/Machine/Faults.lean ====
section
/-! DEFINITION. The supervisor's commands to groups (10 R226, R227, R235; 02 R44 to R47), answers to service requests (10 R504), records
held for device-written rings (10 R225), the end of a check phase, and TRAP completion (11 R261). -/

namespace Sys2Proof.Machine

/-! ### Commands to one group (10 R226) -/

/-- Sets bits of a status register. -/
def State.raiseBit (s : State) (b : Block) (o i : Nat) : State := s.ctlSet b o 4 (setBit (s.ctlNat b o 4) i)

/-- The group that a GROUPCMD or TCOMPL names by core, frame and job. -/
def State.namedGroup (s : State) (core frame job : Nat) : Option (Nat × Group) :=
  if core < 256 ∧ frame < 192 then
    match Assoc.find (groupKey core frame) s.groups with
    | some g => if g.job = job then some (groupKey core frame, g) else none
    | none => none
  else none

/-- Whether the report of a group's stop still waits in the device (10 R225).
DEDUCED: log 32. -/
def State.reportWaits (s : State) (g : Group) : Bool := (Assoc.get [] s.rings (dieOf g.core)).contains g.stopReport.bytes

/-- Whether a group is stopped by a trap or fault, with its stop reported, and may be acted on.
DEDUCED: log 33. -/
def State.faulted (s : State) (g : Group) : Bool := decide (g.stop = .faulted) && !g.cancelled && !s.reportWaits g

/-- A write of GROUPCMD with an action: refused when the group is not there or not in the state that the action requires.
DESIGN CHOICE: log 63. -/
def State.groupCommand (s : State) (action x : Nat) (may : State → Group → Bool) (effect : State → Nat → Group → State) : State :=
  if bitsOf x 63 1 = 1 ∧ bitsOf x 16 4 = action then
    let s1 := s.ctlSet .trans 0x60 8 (bitsOf x 0 20 + 2 ^ 32 * bitsOf x 32 16)
    match s1.namedGroup (bitsOf x 0 8) (bitsOf x 8 8) (bitsOf x 32 16) with
    | some (key, g) => if may s1 g then (effect s1 key g).raiseBit .trans 0x68 1 else s1.raiseBit .trans 0x68 2
    | none => s1.raiseBit .trans 0x68 2
  else s

/-- A device step that takes the value written to a command register. -/
def commandStep (s : State) (f : State → Nat → State) : Host.Outcome State Fault Refusal :=
  let s1 := { s with input := .none }
  match s.input with
  | .word x => .next (f s1 x)
  | _ => .next s1

/-- A group that becomes ready now. -/
def State.readyNow (s : State) (g : Group) : Group := { g with readyAt := s.now g, skip0 := 0, skip1 := 0, readySince := s.clock }

/-- GROUPCMD REISSUE. -/
def execGroupcmdReissue (s : State) : Host.Outcome State Fault Refusal :=
  commandStep s (fun s x => s.groupCommand 0 x State.faulted (fun s key g => s.setGroup key (s.readyNow g.reissue)))

/-- GROUPCMD SKIP. -/
def execGroupcmdSkip (s : State) : Host.Outcome State Fault Refusal :=
  commandStep s (fun s x => s.groupCommand 1 x State.faulted (fun s key g => s.setGroup key (s.readyNow g.skip)))

/-! ### Losing a group (02 R44 to R47) -/

/-- The units of a group's co-scheduled set. -/
def State.memberUnits (s : State) (g : Group) : List Nat :=
  match s.launchOf g with
  | some l =>
    if l.cluen then (List.range l.perclu).map (fun i => g.unitix.toNat / l.perclu * l.perclu + i) else [g.unitix.toNat]
  | none => [g.unitix.toNat]

/-- MEMBERLOST in the unit counters of a co-scheduled set and in the launch counter, and on the set's units that have not retired: the
slice of a unit that retired before the loss stays released (02 R41). -/
def State.markLost (s : State) (g : Group) : State :=
  let ixs := s.memberUnits g
  let lid := g.launchid.toNat
  let s1 := { s with
    units := ixs.foldl (fun t ix => Assoc.modify (unitKey lid ix) (fun u =>
      if u.retired then u else { u with memberLost := true, groupLost := u.groupLost || decide (ix = g.unitix.toNat) }) t) s.units
    launches := Assoc.modify lid (fun l => { l with memberLost := true }) s.launches }
  match s.launchOf g with
  | some l =>
    ixs.foldl (fun s ix => s.setStatus l.job l.keymask (l.block + 0x20 + 16 * ix) stMemberLost)
      (s1.setStatus l.job l.keymask l.block stMemberLost)
  | none => s1

/-- The barrier objects in scratchpads that have lost a member: those in use, and those that a group waits on. -/
def State.lostBarriers (s : State) : List Nat :=
  ((s.objs.filterMap (fun o => if !o.2 && s.memberLostAt o.1 then some o.1 else none)) ++
   s.groups.filterMap (fun x =>
    match x.2.wait with
    | .object _ pa _ _ (.arrival _ _ _) => if s.memberLostAt pa then some pa else none
    | .object _ pa _ _ (.phase _ _ _) => if s.memberLostAt pa then some pa else none
    | _ => none)).eraseDups

/-- Whether a group waits on a ring of a unit that has lost a member (08 R177). -/
def State.ringLost (s : State) (g : Group) : Bool :=
  let lost := match s.unitOf g with | some u => u.groupLost | none => false
  match g.wait with
  | .object _ _ _ _ .take => lost && decide (g.stop = .running)
  | .object _ _ _ _ .acquire => lost && decide (g.stop = .running)
  | _ => false

/-- Waits that a lost member ends: barriers complete their phase, ring waits end with MLOST (02 R46, 08 R177). -/
def State.endLostWaits (s : State) : State :=
  let s1 := s.lostBarriers.foldl (fun s pa => (s.noteLost pa).wakeBarrier pa) s
  (s1.groups.filter (fun x => s1.ringLost x.2)).foldl (fun s x => s.breakWait x.1 false) s1

/-- FAULT in a group's unit counter. -/
def State.unitFault (s : State) (g : Group) : State :=
  match s.launchOf g with
  | some l => s.setStatus l.job l.keymask (l.block + 0x20 + 16 * g.unitix.toNat) stFault
  | none => s

/-- A group is lost: it executes nothing more and FAULT is set in its unit counter; what it issued still completes, and then it counts as
ended (GROUP_END).
DEDUCED: log 35. -/
def State.lose (s : State) (key : Nat) (g : Group) : State :=
  let g1 := { g.swapOut with stop := .lost, wait := .none, waitkind := 0, waitaddr := 0, hold := none, awaitOverlay := none }
  (((s.setGroup key g1).markLost g).unitFault g).endLostWaits

/-- GROUPCMD LOSE. -/
def execGroupcmdLose (s : State) : Host.Outcome State Fault Refusal :=
  commandStep s (fun s x => s.groupCommand 2 x State.faulted State.lose)

/-! ### REPLAY (10 R235) -/

/-- The failure of a replay stops its group again before the instruction that it stopped before. -/
def State.replayStop (s : State) (key : Nat) (g : Group) (t : Trap) : State :=
  match g.wait with
  | .replay slot w => groupStop s key slot (g.live slot).pc t (some .matrix) 0 (some (w.zeroExtend 64))
  | _ => s

/-- The replayed instruction starts when the partition's matrix unit is free and awake and its checks pass, those of the registers that it
reads among them (10 R229).
DEDUCED: log 37. -/
def State.replayStart (s : State) (key : Nat) (g : Group) (slot : Bool) (w : BitVec 22) (i : Instr) : State :=
  let c : Ctx := { s := s, key := key, g := g, slot := slot, f := g.live slot, now := s.now g }
  let p := s.part g.partNo
  if g.matrixOp.isSome || (s.muHolder g.partNo).isSome || decide (g.ctrMatrix = 0xFFFF) then s
  else if p.mu = .idle then s.setPart g.partNo { p with mu := .requested s.clock }
  else if p.mu ≠ .awake then s
  else
    match worst (c.poisonTraps 0 (c.readRegs (shapeOf g i)) ++ c.matrixTraps i) with
    | some t => s.replayStop key g t
    | none =>
      let xs := c.matrixChecks i
      if (heldBy (xs.1 ++ xs.2)).isSome then s
      else
        let r := c.matrixStart i w true
        r.1.setGroup key r.2

/-- A step of the replay of the instruction of a live slot with a PCword: its word is fetched from a slot that holds its overlay, or the overlay
is loaded into a free slot, or it waits. -/
def State.replayStep (s : State) (key : Nat) (g : Group) (slot : Bool) (w : BitVec 22) : State :=
  let pc := pcOfLow w
  match s.slotOf g.core g.job g.code pc.ovl with
  | some j =>
    match Assoc.find (slotKey g.core j) s.slots with
    | some t =>
      match t.fetch pc with
      | .instr i => if isMatrix i then s.replayStart key g slot w i else s.replayStop key g illegal
      | .loading => s
      | .trap t _ => s.replayStop key g t
    | none => s
  | none =>
    match s.freeSlot g.core with
    | some j =>
      let s1 := s.purgeSlots g.core
      let t : Slot := { job := g.job, code := g.code, ovl := pc.ovl, addr := 0, size := 0, loading := some (.replay key) }
      { s1 with slots := Assoc.put (slotKey g.core j) t s1.slots }.setGroup key { g with awaitOverlay := some pc.ovl }
    | none => s

/-- A replay proceeds, unless its group has been stopped by command. -/
def State.replayTry (s : State) (key : Nat) (g : Group) : State :=
  match g.stop, g.wait with
  | .running, .replay slot w => s.replayStep key g slot w
  | _, _ => s

/-- Whether a group's stop may be answered with REPLAY. -/
def State.replayable (s : State) (g : Group) : Bool :=
  s.faulted g && (decide (bitsOf g.frec.faultword.toNat 0 8 = 0x10) ||
    (decide (bitsOf g.frec.faultword.toNat 13 1 = 1) && decide (bitsOf g.frec.faultword.toNat 14 2 = 1)))

/-- A stopped group as a REPLAY makes it: running, with the instruction that INFO names to be executed again. -/
def State.replaying (s : State) (g : Group) : Group :=
  { s.readyNow g.reissue with wait := .replay (g.frec.level.getLsbD 2) (BitVec.ofNat 22 g.frec.info.toNat) }

/-- GROUPCMD REPLAY. A slot that nothing is bound to holds no overlay for it. -/
def execGroupcmdReplay (s : State) : Host.Outcome State Fault Refusal :=
  commandStep s (fun s x => s.groupCommand 3 x State.replayable (fun s key g =>
    ((s.purgeSlots g.core).setGroup key (s.replaying g)).replayTry key (s.replaying g)))

/-- CHECK_PHASE_DONE of a group whose instruction's check waits in the replay queue for a migrating page: once the page is released the
instruction is issued again, which repeats every check (10 R219, R231), once a group stopped by command runs again. Of a group in a replay:
the replayed instruction is tried. -/
def execCheckPhaseDone (s : State) : Host.Outcome State Fault Refusal :=
  let s1 := { s with input := .none }
  match s.input with
  | .one key =>
    match Assoc.find key s.groups with
    | some g =>
      match g.wait with
      | .held va write =>
        let still := match s.place g (some 0) va write with | .held _ => true | _ => false
        if still then .next s1 else .next (s1.setGroup key { g.unwait with readySince := s.clock })
      | .replay _ _ => if g.matrixOp.isSome then .next s1 else .next (s1.replayTry key g)
      | _ => .next s1
    | none => .next s1
  | _ => .next s1

/-! ### STOP and RUN -/

/-- The live slot that a stop by command names: the one that would issue next. -/
def Group.stopSlot (g : Group) : Bool :=
  if g.live0.kind = 1 ∧ g.live1.kind = 1 then !g.lastSlot else decide (g.live1.kind = 1)

/-- A group stops by command at its next boundary: an operation that waits for locks has not begun and is withdrawn, a geometric
instruction that may stop part-way does (06 R140), and the wait stays recorded (10 R220). -/
def State.stopGroup (s : State) (key : Nat) (g : Group) : State :=
  let locked := match g.wait with | .locks id _ => some id | _ => none
  let s1 := match locked with | some id => { s with locks := Assoc.del id s.locks } | none => s
  let g1 := match locked with | some _ => { g with wait := .none } | none => g
  let r : Group × Bool := match g1.geoOp with
    | some o => if g1.geoStoppable o then (g1.geoStop o, o.slot) else (g1, g1.stopSlot)
    | none => (g1, g1.stopSlot)
  let g2 := r.1.commandStop r.2
  (s1.setGroup key g2).report (dieOf g.core) g2.stopReport

/-- GROUPCMD STOP. -/
def execGroupcmdStop (s : State) : Host.Outcome State Fault Refusal :=
  commandStep s (fun s x => s.groupCommand 4 x
    (fun _ g => decide (g.stop = .running) && !g.ending && !g.cancelled) State.stopGroup)

/-- A group stopped by command continues; the object of a wait that it was in is looked at as it now stands. -/
def State.runGroup (s : State) (key : Nat) (g : Group) : State :=
  let s1 := s.setGroup key (s.readyNow g.run)
  match g.wait with
  | .object _ pa _ _ (.counter _) => s1.wakeCounter pa
  | .object _ pa _ _ (.arrival _ _ _) => (s1.noteLost pa).wakeBarrier pa
  | .object _ pa _ _ (.phase _ _ _) => (s1.noteLost pa).wakeBarrier pa
  | .object _ pa _ _ _ => (s1.wakeRing pa).endLostWaits
  | _ => s1

/-- GROUPCMD RUN. -/
def execGroupcmdRun (s : State) : Host.Outcome State Fault Refusal :=
  commandStep s (fun s x => s.groupCommand 5 x
    (fun s g => decide (g.stop = .commanded) && !g.cancelled && !s.reportWaits g) State.runGroup)

/-! ### Answers to service requests (10 R504) -/

/-- An answer to the open request that a token and a ring name; an answer that names none is ignored. -/
def State.answerService (s : State) (x fail : Nat) (f : Service → Option Service) : State :=
  if bitsOf x 63 1 = 1 ∧ bitsOf x 16 1 = fail then
    match s.services.find? (fun v => decide (v.2.die = bitsOf x 17 1) && decide (v.2.token = bitsOf x 0 16) && !v.2.failed) with
    | some (k, v) =>
      match f v with
      | some w => { s with services := Assoc.put k w s.services }
      | none => { s with services := Assoc.del k s.services }
    | none => s
  else s

/-- SVCCMD with FAIL clear: the access walks again when its operation next proceeds. -/
def execSvccmdRetry (s : State) : Host.Outcome State Fault Refusal :=
  commandStep s (fun s x => s.answerService x 0 (fun _ => none))

/-- SVCCMD with FAIL set: the access fails with the report's KIND and CAUSE. -/
def execSvccmdFail (s : State) : Host.Outcome State Fault Refusal :=
  commandStep s (fun s x => s.answerService x 1 (fun v => some { v with failed := true }))

/-- DEVICE_RING_RECORD_WRITE: the oldest record that waits for a ring is written once there is room. -/
def execDeviceRingRecordWrite (s : State) : Host.Outcome State Fault Refusal :=
  let s1 := { s with input := .none }
  match s.input with
  | .one r => .next (s1.flushRing r)
  | _ => .next s1

/-! ### TRAP completion (11 R261) -/

/-- The call that a group waits in. -/
def Group.call (g : Group) : Option (BitVec 16 × Nat) := match g.wait with | .trapCall seq st => some (seq, st) | _ => none

/-- A TRAP call completes: RES0 and RES1 go to k0 and k1, and the group is ready at the instruction after TRAP, its
later loads seeing what stands now, at sys scope (09 R209). -/
def State.completeCall (s : State) (key : Nat) (g : Group) (st res0 res1 : Nat) : State :=
  s.setGroup key { ((g.landK 0 (w32 res0)).landK 1 (w32 res1)).unwait with
    readyAt := s.now g + 1 + st, readySince := s.clock
    order := g.order.raise (BitVec.allOnes 32) 4 s.tick }

/-- A write of TCOMPL with its 16 bytes: the call that it names completes, or the write is refused. -/
def State.tcompl (s : State) (b : List Byte) : State :=
  match s.namedGroup (fieldOf b 2 1) (fieldOf b 3 1) (fieldOf b 0 2) with
  | some (key, g) =>
    match g.call with
    | some (seq, st) =>
      if seq.toNat = fieldOf b 4 2 ∧ g.cancelled = false then
        (s.completeCall key g st (fieldOf b 8 4) (fieldOf b 12 4)).raiseBit .io 0x210 1
      else s.raiseBit .io 0x210 2
    | none => s.raiseBit .io 0x210 2
  | none => s.raiseBit .io 0x210 2

/-- The bytes of module memory that an access of a hart reads or writes. -/
def HartReq.span (r : HartReq) : Nat := if r.write then r.data.length else r.len

/-- Whether an access of a hart is to module memory. -/
def HartReq.memory (r : HartReq) : Bool := r.arrival.isNone && r.call.isNone

/-- Whether an earlier access of a hart's queue keeps a later one back: a store before a notify store or a write of TCOMPL that it is ordered
before, and one that touches the same bytes (09 R209).
DEDUCED: log 134. -/
def HartReq.behind (earlier : List HartReq) (r : HartReq) : Bool :=
  earlier.any (fun e => decide (e.hart = r.hart) && e.memory &&
    (if r.memory then decide (e.addr < r.addr + r.span) && decide (r.addr < e.addr + e.span) else r.ordered && e.write))

/-- TCOMPL: the completion takes effect once the stores that its hart ordered before it have; with a place of the harts' queue, the write that
waits there. -/
def execTcompl (s : State) : Host.Outcome State Fault Refusal :=
  let s1 := { s with input := .none }
  match s.input with
  | .tcompl hart ordered b =>
    let r : HartReq := { hart := hart, mode := .m, mask := 0, addr := 0, write := true, len := 0, data := [], call := some b, ordered := ordered }
    .next (if r.behind s.hartq then { s1 with hartq := s1.hartq ++ [r] } else s1.tcompl b)
  | .one i =>
    match s.hartq[i]? with
    | some r =>
      (match r.call with
       | some b => .next (if r.behind (s.hartq.take i) then s1 else { s1 with hartq := s1.hartq.eraseIdx i }.tcompl b)
       | none => .next s1)
    | none => .next s1
  | _ => .next s1

end Sys2Proof.Machine
end

