-- ==== Sys2Proof/Machine/Fabric.lean ====
section
/-! DEFINITION. The Vilnan fabric (12): requests served as owner, replies and tickets applied as requester, markers, planes and pod
membership. -/

namespace Sys2Proof.Machine

/-! ### The owner: serving a request (12 R267 to R279) -/

/-- The pod job table's entry of a job: its address, key mask and whether it is valid (12 R267). -/
def State.podEntry (s : State) (job : Nat) : Nat := s.ctlNat .fabric 0x10 8 + 8 * job
def State.podKeys (s : State) (job : Nat) : BitVec 16 := BitVec.ofNat 16 (s.nat (s.podEntry job) 2) &&& 0x7FFF
def State.podValid (s : State) (job : Nat) : Bool := decide (s.nat (s.podEntry job + 2) 2 % 2 = 1)

/-- The agent of a remote request. -/
def State.remoteAgent (s : State) (r : Request) : Agent := .group r.role (r.keymask &&& s.podKeys r.job)

/-- A reply leaves on its request's plane. -/
def State.reply (s : State) (r : Request) (body : Reply) : State :=
  s.emit r.src [(r.plane, .reply r.src r.plane r.op r.acc body)]

/-- The reply to a request that has been performed or has failed is remembered for a retransmission of the request; a refusal is not, since
the request has not been performed (12 R286). -/
def State.answer (s : State) (r : Request) (body : Reply) : State :=
  { s with performed := s.performed ++ [(r.src, r.seq, body)] }.reply r body

/-- The open ticket of a requester chip for a page. -/
def State.ownerTicket (s : State) (chip page : Nat) : Option (Nat × OwnerTicket) :=
  s.tickets.find? (fun t => decide (t.2.chip = chip) && decide (t.2.page = page))

/-- A ticket number that no open ticket has: the first from a free one on.
DESIGN CHOICE: log 75. -/
def State.freeTicket (s : State) : Nat :=
  let first := Config.freeNat s.fresh 8
  (((List.range (s.tickets.length + 1)).map (fun i => (first + i) % 2 ^ 16)).find? (fun n => (Assoc.find n s.tickets).isNone)).getD 0

/-- The report of a new ticket (12 R279).
DEDUCED: log 76. -/
def ticketReport (number : Nat) (r : Request) (t : Trap) : Report :=
  { jobid := r.job, launchid := number % 2 ^ 16 + 2 ^ 16 * r.src, faultword := t.faultword none 0
    faddr := r.access.first, remote := true }

/-- The markers of a source that have arrived on a plane. -/
def State.markersOn (s : State) (src plane : Nat) : Nat := Assoc.get 0 s.mcnt (8 * src + plane % 8)

/-- An access that arrived behind `seen` markers is refused with a ticket; it counts as ahead of the marker sets that it was ahead of until
it has been replayed. -/
def State.noteRefused (s : State) (r : Request) (seen number : Nat) : State :=
  if s.refused.any (fun x => decide (x.src = r.src) && decide (x.op = r.op) && decide (x.acc = r.acc)) then
    { s with refused := s.refused.map (fun x =>
        if x.src = r.src ∧ x.op = r.op ∧ x.acc = r.acc then { x with number := number } else x) }
  else { s with refused := s.refused ++ [{ src := r.src, op := r.op, acc := r.acc, core := r.core, frame := r.frame, seen := seen, number := number }] }

/-- An access has been performed or has failed. -/
def State.noteServed (s : State) (r : Request) : State :=
  { s with refused := s.refused.filter (fun x => !(decide (x.src = r.src) && decide (x.op = r.op) && decide (x.acc = r.acc))) }

/-- A request is refused with a ticket: the open one of its page, or a new one. None when every ticket is open.
DESIGN CHOICE: log 75. -/
def State.refuseTicket (s : State) (r : Request) (seen : Nat) (t : Trap) (migrating : Bool) : Option State :=
  let page := r.access.first / 2 ^ 16
  let hint := Config.freeNat s.fresh 7 % 16
  match s.ownerTicket r.src page with
  | some (n, _) => some ((s.noteRefused r seen n).reply r (.ticket s.chipId n hint page))
  | none =>
    if 4096 ≤ s.tickets.length then none
    else
      let n := s.freeTicket
      let s1 := { s with
        tickets := Assoc.put n { chip := r.src, job := r.job, page := page, trap := t, migrating := migrating } s.tickets
        fresh := s.fresh + 1 }
      let s2 := if migrating then s1 else s1.report 0 (ticketReport n r t)
      some ((s2.noteRefused r seen n).reply r (.ticket s.chipId n hint page))

/-- What serving a request gives. -/
inductive Served where
  | done (s : State)
  | waits
  deriving DecidableEq, Repr

/-- Shifts an access from offsets to flat addresses of its sector. -/
def AccessKind.shift (k : AccessKind) (off flat : Nat) : AccessKind :=
  match k with
  | .read cells => .read (cells.map (fun c => (flat + c.1 - off, c.2)))
  | .write cells => .write (cells.map (fun c => (flat + c.1 - off, c.2)))
  | .rmw a n slot op => .rmw (flat + a - off) n slot op

/-- The access of a request takes effect at its home slice, and is answered. -/
def State.performRequest (s : State) (r : Request) (flat : Nat) (f : Option Found) : Served :=
  let off := r.access.first
  let key := match f with | some x => pteKey x.entry | none => 0
  let s1 := match f with | some x => s.setAD x r.access.writes | none => s
  let s2 := s1.noteSpill r.job off
  if r.access.writes && s.shackled flat then .waits
  else
    match r.access.shift off flat with
    | .read cells =>
      let got : List (Nat × Byte) := cells.foldl (fun t c => Assoc.set 0 t c.2 (s2.byte c.1)) []
      .done (s2.answer r (.data got (cells.any (fun c => s2.poisoned c.1)) (decide (key = 1))))
    | .write cells => .done ((s2.softwareStore cells).answer r .ack)
    | .rmw a n slot op =>
      if s2.poisoned a then .done (s2.answer r (.error 0x0F 1))
      else
        let x := s2.rmw a n op r.pcword
        .done (x.1.answer r (.data ((cellsOf slot n x.2).foldl (fun t c => Assoc.set 0 t c.1 c.2) []) false (decide (key = 1))))

/-- A request is served: refused for its job, refused with a ticket, answered with an error, or performed (12 R268, R278).
DEDUCED: log 83. -/
def State.serve (s : State) (r : Request) (seen : Nat) : Served :=
  let off := r.access.first
  let page := off / 2 ^ 16
  if !s.podValid r.job || !s.jobLive r.job then
    .done (((s.noteServed r).configError (if s.podValid r.job then s.contextAddr r.job else s.podEntry r.job) r.job).answer r (.error 0x09 2))
  else if (s.ownerTicket r.src page).isSome then
    (match s.refuseTicket r seen { kind := 0 } false with | some s1 => .done s1 | none => .waits)
  else
    match (walk s (s.remoteAgent r) r.job off r.access.writes).place s off r.access.writes with
    | .here flat f => (s.noteServed r).performRequest r flat f
    | .held p =>
      if s.homeWaits p || !pteMig (s.nat p 8) then .waits
      else (match s.refuseTicket r seen { kind := 0x08 } true with | some s1 => .done s1 | none => .waits)
    | .chip _ _ => .waits
    | .fault t =>
      if t.curable then (match s.refuseTicket r seen t false with | some s1 => .done s1 | none => .waits)
      else .done (((s.noteServed r).noteConfig t r.job).answer r (.error t.kind t.cause))

/-- Whether a request of a source waits that came on a plane: the later ones of the plane wait behind it (12 R265). -/
def State.waitsBefore (s : State) (src plane : Nat) : Bool :=
  s.waiting.any (fun w => decide (w.req.src = src) && decide (w.req.plane = plane))

/-- Whether a held flagged store of a request's source touches a common byte: the request then takes effect after it (12 R265). -/
def State.behindFlagged (s : State) (r : Request) : Bool :=
  s.flagged.any (fun f => decide (f.src = r.src) && f.access.bytes.any (fun x => r.access.bytes.contains x))

/-- A request is served, or waits behind what waits of its source and plane. -/
def State.serveOrWait (s : State) (w : Waiting) : State :=
  if s.waitsBefore w.req.src w.req.plane || s.behindFlagged w.req then { s with waiting := s.waiting ++ [w] }
  else
    match s.serve w.req w.seen with
    | .done s1 => s1
    | .waits => { s with waiting := s.waiting ++ [w] }

/-- Serves the requests that wait at this owner, in order; those that still wait stay. -/
def State.serveWaiting (s : State) : State := s.waiting.foldl State.serveOrWait { s with waiting := [] }

/-- A request of which a retransmission has arrived is answered on the new plane (12 R286). -/
def State.followPlane (s : State) (r : Request) : State :=
  let new (w : Request) : Request := if w.src = r.src ∧ w.seq = r.seq then { w with plane := r.plane } else w
  { s with waiting := s.waiting.map (fun w => { w with req := new w.req }), flagged := s.flagged.map new }

/-- REMOTE_REQUEST: a request arrives at this chip; a retransmission of one already performed is only answered again. A flagged store is
held for its marker set; a request behind a waiting one of its source and plane waits with it. With no request, waiting ones are served. -/
def execRemoteRequest (s : State) : Host.Outcome State Fault Refusal :=
  let s1 := { s with input := .none }
  match s.input with
  | .request r =>
    if r.dst = s.chipId then
      match s.performed.find? (fun p => decide (p.1 = r.src) && decide (p.2.1 = r.seq)) with
      | some p => .next (s1.emit r.src [(r.plane, .reply r.src r.plane r.op r.acc p.2.2)])
      | none =>
        if s.waiting.any (fun w => decide (w.req.src = r.src) && decide (w.req.seq = r.seq)) ||
            s.flagged.any (fun w => decide (w.src = r.src) && decide (w.seq = r.seq)) then .next (s1.followPlane r)
        else if r.flagged.isSome then .next { s1 with flagged := s1.flagged ++ [r] }
        else .next (s1.serveOrWait { req := r, seen := s.markersOn r.src r.plane })
    else .next s1
  | _ => .next s1.serveWaiting

/-- A ticket closes: it leaves the table, and its replay notice goes to the requester on all eight planes (12 R282). -/
def State.closeTicket (s : State) (n : Nat) (t : OwnerTicket) (status : Nat) : State :=
  { s with
    tickets := Assoc.del n s.tickets
    refused := if status = 0 then s.refused else s.refused.filter (fun x => !(decide (x.src = t.chip) && decide (x.number = n))) }.emit t.chip
      ((List.range 8).map (fun k => (k, .replayNotice t.chip k s.chipId n status t.trap.kind t.trap.cause)))

/-- TKTDONE: the pager closes an open ticket; a number that names none is ignored. Requests that waited for a ticket are served. -/
def execTktdone (s : State) : Host.Outcome State Fault Refusal :=
  commandStep s (fun s x =>
    if bitsOf x 63 1 = 1 then
      match Assoc.find (bitsOf x 0 16) s.tickets with
      | some t => (s.closeTicket (bitsOf x 0 16) t (bitsOf x 16 1)).serveWaiting
      | none => s
    else s)

/-! ### Markers at the target (12 R275 to R277) -/

/-- Whether a count of markers stands at set `n` or after it. -/
def markerReached (count n : Nat) : Bool := decide ((count + 2 ^ 16 - n) % 2 ^ 16 < 2 ^ 15)

/-- Whether marker set `n` of a source is complete: its markers have arrived on all planes, and every packet of the source that arrived
ahead of them has taken effect; one that a ticket refused has not until it is replayed or fails (12 R278).
DEDUCED: log 127. -/
def State.setComplete (s : State) (src n : Nat) : Bool :=
  (List.range 8).all (fun k => markerReached (s.markersOn src k) n) &&
  s.waiting.all (fun w => decide (w.req.src ≠ src) || markerReached w.seen n) &&
  s.refused.all (fun x => decide (x.src ≠ src) || markerReached x.seen n) &&
  s.flagged.all (fun r => match r.flagged with | some m => !(decide (r.src = src) && decide (m ≠ n) &&
    decide ((n + 2 ^ 16 - m) % 2 ^ 16 < 2 ^ 15)) | none => true)

/-- MARKER_RECEIVED. -/
def execMarkerReceived (s : State) : Host.Outcome State Fault Refusal :=
  let s1 := { s with input := .none }
  match s.input with
  | .marker src plane n rep =>
    let k := 8 * src + plane % 8
    let s2 := { s1 with mcnt := Assoc.set 0 s1.mcnt k ((Assoc.get 0 s1.mcnt k + 1) % 2 ^ 16) }
    .next (if rep && !s2.reports.contains (src, n) then { s2 with reports := s2.reports ++ [(src, n)] } else s2)
  | _ => .next s1

/-- FLAGGED_STORE_PERFORM: the held flagged store of a source with set `n` is performed and answered once the set is complete. -/
def execFlaggedStorePerform (s : State) : Host.Outcome State Fault Refusal :=
  let s1 := { s with input := .none }
  match s.input with
  | .two src n =>
    match s.flagged.find? (fun r => decide (r.src = src) && decide (r.flagged = some n)) with
    | some r =>
      if s.setComplete src n then
        let s2 := { s1 with flagged := s1.flagged.filter (fun x => decide (x ≠ r)) }
        match s2.serve { r with flagged := none } n with
        | .done s3 => .next s3
        | .waits => .next s1
      else .next s1
    | none => .next s1
  | _ => .next s1

/-- MARKER_REPORT of a source's FENCER set. It names no plane, and none of the planes' escape channels carries it.
DESIGN CHOICE: log 149. -/
def execMarkerReport (s : State) : Host.Outcome State Fault Refusal :=
  let s1 := { s with input := .none }
  match s.input with
  | .two src n =>
    if s.reports.contains (src, n) && s.setComplete src n then
      .next { s1 with reports := s1.reports.filter (fun x => decide (x ≠ (src, n))), out := s1.out ++ [.markerReport src n] }
    else .next s1
  | _ => .next s1

/-! ### The requester: replies (12 R271, R272, R281, R282) -/

/-- The request in flight of an access. -/
def State.flightOf (s : State) (op acc : Nat) : Option Request := s.flight.find? (fun r => decide (r.op = op) && decide (r.acc = acc))

/-- A request has been answered: it leaves the retransmission buffer. -/
def State.answered (s : State) (r : Request) : State := { s with flight := s.flight.filter (fun x => decide (x ≠ r)) }

/-- The ticket table entry of an access. -/
def State.entryOf (s : State) (op acc : Nat) : Option (Nat × TicketEntry) :=
  s.rtkt.find? (fun x => decide (x.2.op = op) && decide (x.2.acc = acc))

/-- The entry of an answered access, if it had one, is freed. -/
def State.freeEntryOf (s : State) (op acc : Nat) : State :=
  match s.entryOf op acc with
  | some (e, t) => s.freeEntry e t
  | none => s

/-- The traps of the lanes that a failed load or atomic serves. -/
def laneErrors (a : Access) (kind : BitVec 8) (cause : BitVec 4) : List (Nat × Trap) :=
  let chip := a.chip.getD 0
  let trap (off : Nat) : Trap := { kind := kind, cause := cause, write := a.writes, addr := podVa chip off }
  match a.kind with
  | .read cells => ((cells.map (fun c => c.2 / 16)).eraseDups).map (fun l =>
      (l, trap (((cells.filter (fun c => decide (c.2 / 16 = l))).map (fun c => c.1)).foldl min (2 ^ 41))))
  | .rmw addr _ slot _ => [(slot / 16, trap addr)]
  | .write _ => []

/-- A load or atomic access fails: its group will stop for it; a store leaves a pending failure of class remote. -/
def State.failAccess (s : State) (op acc : Nat) (a : Access) (kind : BitVec 8) (cause : BitVec 4) : State :=
  match Assoc.find op s.ops with
  | none => s
  | some o =>
    if a.kind.isStore then
      let t : Trap := { kind := kind, cause := cause, write := true, addr := podVa (a.chip.getD 0) a.kind.first }
      let s1 := s.mapGroup o.group (fun g => (g.ackDown a.kind.first).addFailure .remote t o.pcword)
      (s1.keepOp op { o with sent := Assoc.del acc o.sent } true).settleFencer o.group
    else
      let o1 := { o with sent := Assoc.del acc o.sent, errs := o.errs ++ laneErrors a kind cause }
      s.keepOp op o1 true

/-- A load or atomic of another chip has returned: what follows its acquire at dev scope or wider, or a later fence, reads no earlier than
now. -/
def State.heardFar (s : State) (g : Group) (o : MemOp) : Group :=
  let o1 := { g.order with far := laneRaise g.order.far o.owner s.tick }
  { g with order := match o.acquire with | some sc => o1.raise o.owner sc.toNat s.tick | none => o1 }

/-- The data of a load or atomic arrives. -/
def State.takeData (s : State) (op acc : Nat) (o : MemOp) (got : List (Nat × Byte)) (poisoned : Bool) : State :=
  (s.mapGroup o.group (fun g => s.heardFar g o)).keepOp op { o with
    got := got.foldl (fun t c => Assoc.set 0 t c.1 c.2) o.got
    poisoned := o.poisoned || poisoned
    sent := Assoc.del acc o.sent } true

/-- A reply to a part of a copy-engine operation. -/
def State.copyReply (s : State) (op acc : Nat) (o : CopyOp) (body : Reply) : State :=
  let o1 := { o with sent := o.sent.filter (fun n => decide (n ≠ acc)) }
  let o2 : CopyOp :=
    match body with
    | .data got poisoned weight =>
      let base := 64 * (acc / 2)
      if poisoned then { o1 with failed := some { kind := 0x0F, cause := 1, addr := base } }
      else { o1 with
        buf := got.foldl (fun t c => Assoc.put (base + c.1) c.2 t) o1.buf
        hot := if weight then Assoc.put (acc / 2) 1 o1.hot else o1.hot }
    | .ack => { o1 with done := Assoc.put (acc / 2) true o1.done }
    | .error kind cause => { o1 with failed := some { kind := kind, cause := cause, write := decide (acc % 2 = 1), addr := 64 * (acc / 2) } }
    | .ticket _ _ _ _ => o1
  { s with copies := Assoc.put op o2 s.copies }

/-- A read reply whose unlisted cells are zero: every cell of the request, with its byte. -/
def fullData (r : Request) (got : List (Nat × Byte)) : List (Nat × Byte) :=
  match r.access with
  | .read cells => cells.map (fun c => (c.2, Assoc.get 0 got c.2))
  | _ => got

/-- REMOTE_REPLY: data, poisoned data or an error for a load, an atomic, or a part of a copy operation. -/
def execRemoteReply (s : State) : Host.Outcome State Fault Refusal :=
  let s1 := { s with input := .none }
  match s.input with
  | .reply op acc body =>
    match s.flightOf op acc with
    | some r =>
      match Assoc.find op s.ops, Assoc.find op s.copies, body with
      | some o, _, .data got poisoned _ =>
        if r.access.isStore then .next s1 else .next (((s1.answered r).freeEntryOf op acc).takeData op acc o got poisoned)
      | some o, _, .error kind cause =>
        if r.access.isStore then .next s1
        else
          (match Assoc.find acc o.sent with
           | some a => .next (((s1.answered r).freeEntryOf op acc).failAccess op acc a kind cause)
           | none => .next s1)
      | none, some o, .data got poisoned weight => .next ((s1.answered r).copyReply op acc o (.data (fullData r got) poisoned weight))
      | none, some o, .error kind cause => .next ((s1.answered r).copyReply op acc o (.error kind cause))
      | none, none, _ => .next (s1.answered r)
      | _, _, _ => .next s1
    | none => .next s1
  | _ => .next s1

/-- A group one of whose stores to another chip has taken effect there: a later acquire of the same lanes reads no earlier than a release
(09 R197 row 4). -/
def State.storeAcked (s : State) (g : Group) (o : MemOp) : Group :=
  if wideScope o.release && decide (o.acquire = none) then { g with order := { g.order with released := laneRaise g.order.released o.owner s.tick } } else g

/-- REMOTE_STORE_ACK: an acknowledgement or error for a posted store. -/
def execRemoteStoreAck (s : State) : Host.Outcome State Fault Refusal :=
  let s1 := { s with input := .none }
  match s.input with
  | .reply op acc body =>
    match s.flightOf op acc with
    | some r =>
      if r.access.isStore then
        match Assoc.find op s.ops, Assoc.find op s.copies, body with
        | some o, _, .ack =>
          let s2 := ((s1.answered r).freeEntryOf op acc).mapGroup o.group (fun g => s.storeAcked (g.ackDown r.access.first) o)
          .next ((s2.keepOp op { o with sent := Assoc.del acc o.sent } true).settleFencer o.group)
        | some o, _, .error kind cause =>
          (match Assoc.find acc o.sent with
           | some a => .next (((s1.answered r).freeEntryOf op acc).failAccess op acc a kind cause)
           | none => .next s1)
        | none, some o, .ack => .next ((s1.answered r).copyReply op acc o .ack)
        | none, none, _ => .next (s1.answered r)
        | _, _, _ => .next s1
      else .next s1
    | none => .next s1
  | _ => .next s1

/-! ### The requester: tickets (12 R278 to R282) -/

/-- The copies that have come of the replay notice of a ticket not yet known. -/
def State.earlyNotice (s : State) (owner number : Nat) : Option Notice :=
  s.early.find? (fun x => decide (x.owner = owner) && decide (x.number = number))

/-- The known ticket with a number at its owner that has not closed. -/
def State.knownNumber (s : State) (owner number : Nat) : Option KnownTicket :=
  s.known.find? (fun t => decide (t.owner = owner) && decide (t.number = number) && !t.closed)

/-- A ticket becomes known at this chip, with the copies of its replay notice that have come. -/
def State.learnTicket (s0 : State) (owner number job page hint : Nat) : State :=
  if (s0.knownNumber owner number).isSome then s0
  else
    let k : KnownTicket := { serial := s0.nextId, owner := owner, number := number, job := job, page := page, hint := hint }
    let s := { s0 with nextId := s0.nextId + 1 }
    match s.earlyNotice owner number with
    | some n =>
      { s with
        known := s.known ++ [{ k with notices := n.planes, status := n.status, kind := n.kind, cause := n.cause }]
        early := s.early.filter (fun x => decide (x ≠ n)) }
    | none => { s with known := s.known ++ [k] }

/-- A closed ticket acts on one entry: replayed in its turn, or failed (12 R282). -/
def State.settleEntry (s : State) (k : KnownTicket) (e : Nat) (t : TicketEntry) : State :=
  if k.status = 0 then s.advanceChain (e / 32) k.serial
  else (s.freeEntry e t).failAccess t.op t.acc t.access k.kind k.cause

/-- A refused access enters the ticket table, or is held while the core's table is full or earlier ones are held (`behind`); when the ticket
has closed meanwhile it is settled at once. -/
def State.takeTicket (s : State) (core op acc serial hint : Nat) (behind : Bool) : State :=
  match Assoc.find op s.ops, s.knownSerial serial with
  | some o, some k =>
    (match Assoc.find acc o.sent with
     | some a =>
       (match (s.freeRtkt core).filter (fun _ => !behind) with
        | some e =>
          let s1 := s.enterTicket e op acc o a k
          if k.closed then (match Assoc.find e s1.rtkt with | some t => s1.settleEntry k e t | none => s1) else s1
        | none =>
          { s with heldTickets := s.heldTickets ++ [{ core := core, op := op, acc := acc, owner := k.owner, number := k.number, serial := serial, hint := hint }] })
     | none => s)
  | _, _ => s

/-- FAULT_TICKET_RESPONSE. A replayed access that meets a new ticket leaves its entry and enters the new ticket's chain before its old chain
moves on; a copy engine holds its own tickets. -/
def execFaultTicketResponse (s : State) : Host.Outcome State Fault Refusal :=
  let s1 := { s with input := .none }
  match s.input with
  | .ticket op acc owner number hint page =>
    match s.flightOf op acc with
    | some r =>
      let s2 : State := (s1.answered r).learnTicket owner number r.job page hint
      let serial := match s2.knownNumber owner number with | some k => k.serial | none => 0
      match Assoc.find op s.copies with
      | some o =>
        .next { s2 with copies := Assoc.put op { o with
          sent := o.sent.filter (fun n => decide (n ≠ acc))
          tickets := if o.tickets.contains serial then o.tickets else o.tickets ++ [serial] } s2.copies }
      | none =>
        let s3 := match s2.entryOf op acc with | some (e, t) => s2.releaseEntry e t | none => s2
        .next (s3.takeTicket r.core op acc serial hint (s3.holdsTickets r.core)).advanceChains.forgetTickets
    | none => .next s1
  | _ => .next s1

/-- TICKET_TABLE_ENTRY: the oldest ticket that waits for a core's table enters it once an entry is free. -/
def execTicketTableEntry (s : State) : Host.Outcome State Fault Refusal :=
  let s1 := { s with input := .none }
  match s.input with
  | .one core =>
    match s.heldTickets.find? (fun h => decide (h.core = core)), s.freeRtkt core with
    | some h, some _ =>
      .next ({ s1 with heldTickets := s1.heldTickets.filter (fun x => decide (x ≠ h)) }.takeTicket core h.op h.acc h.serial h.hint false)
    | _, _ => .next s1
  | _ => .next s1

/-- The copy operations that hold a ticket go on, or fail with its walk's fault. -/
def State.settleCopies (s : State) (k : KnownTicket) : State :=
  { s with copies := s.copies.map (fun c : Nat × CopyOp =>
      if c.2.tickets.contains k.serial then
        (c.1, { c.2 with
          tickets := c.2.tickets.filter (fun x => decide (x ≠ k.serial))
          failed := if k.status = 0 then c.2.failed
            else some (c.2.failed.getD { kind := k.kind, cause := k.cause, write := decide (k.kind = 0x08 ∧ k.cause = 1), addr := podVa k.owner (2 ^ 16 * k.page) }) })
      else c) }

/-- A ticket has closed: each core replays its chain, or every entry fails. -/
def State.actOnNotice (s : State) (k : KnownTicket) : State :=
  let es := s.rtkt.filter (fun x => decide (x.2.serial = k.serial))
  (es.foldl (fun s x => s.settleEntry k x.1 x.2) (s.settleCopies k)).forgetTickets

/-- REPLAY_NOTICE: one copy arrives; with the eighth the ticket is acted on. -/
def execReplayNotice (s : State) : Host.Outcome State Fault Refusal :=
  let s1 := { s with input := .none }
  match s.input with
  | .notice owner number plane status kind cause =>
    match s.knownNumber owner number with
    | some k =>
      if k.notices.contains plane then .next s1
      else
        let k1 := { k with notices := k.notices ++ [plane], status := status, kind := kind, cause := cause }
        let s2 := { s1 with known := s1.known.map (fun t => if t = k then k1 else t) }
        .next (if k1.closed then s2.actOnNotice k1 else s2)
    | none =>
      let n : Notice := (s.earlyNotice owner number).getD { owner := owner, number := number, planes := [], status := status, kind := kind, cause := cause }
      if n.planes.contains plane then .next s1
      else
        let n1 := { n with planes := n.planes ++ [plane] }
        let rest := s1.early.filter (fun x => decide (x ≠ n))
        .next { s1 with early := if n1.planes.length = 8 then rest else rest ++ [n1] }
  | _ => .next s1

/-- MARKER_REPORT_ARRIVAL: chip `chip` reports set `n`. -/
def execMarkerReportArrival (s : State) : Host.Outcome State Fault Refusal :=
  let s1 := { s with input := .none }
  match s.input with
  | .two chip n =>
    let hit (g : Group) : Bool := match g.wait with | .fencer sets _ => sets.contains (chip, n) | _ => false
    let keys := (s.groups.filter (fun x => hit x.2)).map (fun x => x.1)
    .next (keys.foldl (fun s k =>
      (s.mapGroup k (fun g =>
        match g.wait with
        | .fencer sets st => { g with wait := .fencer (sets.filter (fun x => decide (x ≠ (chip, n)))) st }
        | _ => g)).settleFencer k) s1)
  | _ => .next s1

/-! ### Planes and membership (12 R285 to R288) -/

/-- ESCTIMER_EXPIRY: when the packet at the head of a plane port's queue has waited ESCTIMER link cycles, it and every packet behind it for
its destination take the escape channel, and so do later ones until none of them remains there.
DEDUCED: log 82. -/
def execEsctimerExpiry (s : State) : Host.Outcome State Fault Refusal :=
  let s1 := { s with input := .none }
  match s.input with
  | .portQueue plane waited (chip :: behind) =>
    let key := 256 * (plane % 8) + chip % 256
    if s.ctlNat .fabric 0xC 4 ≤ waited then
      .next { s1 with escape := Assoc.set 0 s1.escape key (Assoc.get 0 s1.escape key + 1 + behind.countP (fun c => decide (c % 256 = chip % 256))) }
    else .next s1
  | .escapeLeft plane chip =>
    let key := 256 * (plane % 8) + chip % 256
    .next { s1 with escape := Assoc.set 0 s1.escape key (Assoc.get 0 s1.escape key - 1) }
  | _ => .next s1

/-- Whether a plane is alive. -/
def State.alive (s : State) (plane : Nat) : Bool := decide (bitsOf (s.ctlNat .fabric 8 4) plane 1 = 1)

/-- The first live plane after one, in ascending order modulo 8. -/
def State.nextLive (s : State) (plane : Nat) : Option Nat :=
  ((List.range 8).map (fun i => (plane + 1 + i) % 8)).find? (fun k => s.alive k)

/-- PLANEMAP with every index that names a plane remapped. -/
def remap (map dead live : Nat) : Nat :=
  (List.range 8).foldl (fun m i => if bitsOf m (3 * i) 3 = dead then setBits m (3 * i) 3 live else m) map

/-- A load or atomic in flight to a lost chip writes its destination as poisoned, a store fails with KIND 0x0F, and a part of a copy
fails (12 R287). -/
def State.loseRequest (s : State) (r : Request) : State :=
  let s1 := s.answered r
  match Assoc.find r.op s1.ops, Assoc.find r.op s1.copies with
  | some o, _ =>
    if r.access.isStore then (match Assoc.find r.acc o.sent with | some a => (s1.freeEntryOf r.op r.acc).failAccess r.op r.acc a 0x0F 0 | none => s1)
    else (s1.freeEntryOf r.op r.acc).takeData r.op r.acc o [] true
  | none, some o => s1.copyReply r.op r.acc o (.error 0x0F 0)
  | none, none => s1

/-- A known ticket of a lost chip fails; its walk's fault is one of the three that open a ticket.
DESIGN CHOICE: log 77. -/
def State.loseTicket (s : State) (k : KnownTicket) : State :=
  let n := Config.freeNat s.fresh (2 ^ 16 * k.owner + k.number) % 3
  let k1 := { k with
    notices := List.range 8, status := 1
    kind := if n = 2 then 0x09 else 0x08, cause := if n = 1 then 1 else 0 }
  { s with known := s.known.map (fun t => if t = k then k1 else t), fresh := s.fresh + 1 }.actOnNotice k1

/-- Chips leave the pod: what is in flight to them fails. -/
def State.loseChips (s : State) (gone : Nat → Bool) : State :=
  let s1 := (s.flight.filter (fun r => gone r.dst)).foldl State.loseRequest
    { s with refused := s.refused.filter (fun x => !gone x.src) }
  (s1.known.filter (fun k => gone k.owner)).foldl State.loseTicket s1

/-- PODMASK as 32 bytes. -/
def State.podmask (s : State) : Nat := s.ctlNat .fabric 0x20 32

/-- PODMASK is set; accesses to chips whose bit clears fail. -/
def State.setPodmask (s : State) (x : Nat) : State :=
  (s.ctlSet .fabric 0x20 32 x).loseChips (fun c => decide (bitsOf s.podmask c 1 = 1) && decide (bitsOf x c 1 = 0))

/-- Requests leave again, in order. -/
def State.resendAll (s : State) (rs : List Request) : State :=
  rs.foldl (fun (s : State) (r : Request) => s.emit r.dst [(r.plane, .request r)]) s

/-- The requests of a dead plane are resent on the plane that now carries their index, in order (12 R286). -/
def State.retransmit (s : State) (dead : Nat) : State :=
  let moved : List Request := (s.flight.filter (fun r => decide (r.plane = dead))).map (fun r =>
    { r with plane := s.planeOf (planeIndex r.access.first) })
  let s1 : State := { s with
    flight := s.flight.map (fun r => if r.plane = dead then { r with plane := s.planeOf (planeIndex r.access.first) } else r)
    planeNow := s.planeNow.filter (fun x => decide (x.2 ≠ dead))
    escape := s.escape.filter (fun x => decide (x.1 / 256 ≠ dead)) }
  (s1.resendAll moved).advanceChains

/-- PLANE_DEAD. A chip all of whose planes have died leaves the pod.
DEDUCED: log 80. -/
def execPlaneDead (s : State) : Host.Outcome State Fault Refusal :=
  let s1 := { s with input := .none }
  match s.input with
  | .one k =>
    if k < 8 ∧ s.alive k = true then
      let stat := setBits (setBits (s.ctlNat .fabric 8 4) k 1 0) (8 + k) 1 1
      let s2 := (s1.ctlSet .fabric 8 4 stat).configError 0
      match s2.nextLive k with
      | some live => .next ((s2.ctlSet .fabric 4 4 (remap (s2.ctlNat .fabric 4 4) k live)).retransmit k)
      | none => .next (s2.setPodmask 0)
    else .next s1
  | _ => .next s1

/-- PLANEMAP_WRITE by a hart in M mode: a map that names a dead plane is ignored; an index whose requests are still out keeps its old
plane until they are settled. -/
def execPlanemapWrite (s : State) : Host.Outcome State Fault Refusal :=
  commandStep s (fun s x =>
    let new := x % 2 ^ 24
    if (List.range 8).all (fun i => s.alive (bitsOf new (3 * i) 3)) then
      let busy := (List.range 8).filter (fun i => decide (s.planeOf i ≠ bitsOf new (3 * i) 3) && (Assoc.find i s.planeNow).isNone &&
        s.flight.any (fun r => decide (planeIndex r.access.first = i)))
      { s.ctlSet .fabric 4 4 new with planeNow := busy.foldl (fun t i => Assoc.put i (s.planeOf i) t) s.planeNow }
    else s)

/-- PLANEMAP_CHANGE_APPLY of an index: nothing of it is out on the old plane any more. -/
def execPlanemapChangeApply (s : State) : Host.Outcome State Fault Refusal :=
  let s1 := { s with input := .none }
  match s.input with
  | .one i =>
    match Assoc.find i s.planeNow with
    | some old =>
      if s.flight.any (fun r => decide (planeIndex r.access.first = i) && decide (r.plane = old)) then .next s1
      else
        let s2 : State := { s1 with planeNow := Assoc.del i s1.planeNow }
        .next s2.advanceChains
    | none => .next s1
  | _ => .next s1

/-- PODMASK_WRITE, with 32 bytes. -/
def execPodmaskWrite (s : State) : Host.Outcome State Fault Refusal :=
  let s1 := { s with input := .none }
  match s.input with
  | .bytes b => .next (s1.setPodmask (leNat (b.take 32)))
  | _ => .next s1

end Sys2Proof.Machine
end

