-- ==== Sys2Proof/Machine/Io.lean ====
section
/-! DEFINITION. I/O (11 R238 to R257): arrivals, doorbells, translation for endpoints, page requests, NTB peers, and the root ports. -/

namespace Sys2Proof.Machine

/-! ### Arrivals (11 R245 to R248, R253) -/

/-- The entry of an arrival vector: its place and fields. -/
def State.vectorAt (s : State) (v : Nat) : Nat := s.ctlNat .io 0x10 8 + 16 * v
def State.vectorObj (s : State) (v : Nat) : Nat := bitsOf (s.nat (s.vectorAt v) 8) 0 56
def State.vectorJob (s : State) (v : Nat) : Nat := s.nat (s.vectorAt v + 8) 2
def State.vectorRid (s : State) (v : Nat) : Nat := s.nat (s.vectorAt v + 0xA) 2
def State.vectorFlags (s : State) (v : Nat) : Nat := s.nat (s.vectorAt v + 0xC) 2

/-- Whether a vector is bound, and bound with a flag. -/
def State.bound (s : State) (v : Nat) : Bool := decide (v ≤ 65534) && decide (bitsOf (s.vectorFlags v) 0 1 = 1)
def State.boundWith (s : State) (v flag : Nat) : Bool := s.bound v && decide (bitsOf (s.vectorFlags v) flag 1 = 1)

/-- The place of an arrival object: global memory, or a job's grant of die scratchpad. -/
def State.arrivalPlace (s : State) (job va : Nat) : Reach :=
  if va ≥ 2 ^ 56 then .refused (windowFault va true)
  else
    match windowOf va with
    | .global => s.reach job ordinaryKeys va true
    | .die off =>
      let gr := s.dieGrant job (bitsOf off 25 1)
      let y := bitsOf off 0 25
      if s.jobLive job ∧ gr.1 ≤ y ∧ y < gr.1 + gr.2 then
        .at (paDie (bitsOf off 25 1) y) { pa := 0, pte := 0, entry := 0, level := 0, cached := true }
      else .refused (windowFault va true)
    | _ => .refused (windowFault va true)

/-- Records a device access in a leaf entry, where it went through one. -/
def State.noteReach (s : State) (f : Found) : State := if f.cached then s else s.setAD f true

/-- A discarded arrival write is counted, saturating. -/
def State.dropArrival (s : State) : State := s.ctlSet .io 0x18 4 (min (2 ^ 32 - 1) (s.ctlNat .io 0x18 4 + 1))

/-- The arrival that a write to a bound vector makes, in the order of arrival, which `State.countArrival` moves on. -/
def State.arrivalOf (s : State) (v : Nat) : Arrival := { vector := v, job := s.vectorJob v, obj := s.vectorObj v, seq := s.nextId }
def State.countArrival (s : State) : State := { s with nextId := s.nextId + 1 }

/-- Whether two arrivals are to one object. -/
def Arrival.meets (a b : Arrival) : Bool := decide (a.job = b.job) && decide (a.obj = b.obj)

/-- Whether an arrival that reached the root complex before one to the same object still waits at its port or with its hart (11 R247). -/
def State.arrivalAhead (s : State) (a : Arrival) : Bool :=
  s.endpoints.any (fun e => match e.kind with | .arrival x => x.meets a && decide (x.seq < a.seq) | _ => false) ||
  s.hartq.any (fun r => match r.arrival with | some x => x.meets a && decide (x.seq < a.seq) | none => false)

/-- Whether a device's write of the line of an address waits: for a shackle (07 R157), or for its home (13 R292, R308). -/
def State.lineWaits (s : State) (flat : Nat) : Bool := s.shackled flat || s.homeWaits flat

/-- The page-fault report of an arrival whose object cannot be reached (11 R247). -/
def State.arrivalFault (s : State) (a : Arrival) (t : Trap) : State :=
  (s.report 0 { jobid := a.job, faultword := t.faultword none 0, faddr := a.obj }).noteConfig t a.job

/-- An accepted arrival: applied, or in the arrival queue behind earlier ones of its object or while its object cannot be reached or written;
nothing where that queue is full or an earlier one has not got so far, so that it waits where it is.
DEDUCED: log 69. -/
def State.applyArrival (s : State) (a : Arrival) : Option State :=
  let queued := { s with arrivals := s.arrivals ++ [a] }
  let room (s1 : State) : Option State := if s.arrivals.length < 2048 then some s1 else none
  if s.arrivalAhead a then none
  else if s.arrivals.any (fun x => x.meets a) then room queued
  else
    match s.arrivalPlace a.job a.obj with
    | .at pa f => if s.lineWaits pa then room queued else some (((s.noteReach f).noteLost pa).externalArrival pa)
    | .held _ => room queued
    | .refused t => room (queued.arrivalFault a t)

/-- A port that takes requests: its link is up, and it is not contained (11 R251). -/
def State.portOpen (s : State) (p : Nat) : Bool := decide (p < 8) && Assoc.get false s.links p && !Assoc.get false s.contained p

/-- Whether earlier posted writes of a request's function at its port are still open: an arrival waits for them, unless one or the other
carries the Relaxed Ordering attribute (09 R208, 11 R253).
DEDUCED: log 133. -/
def EndpointReq.behind (earlier : List EndpointReq) (r : EndpointReq) : Bool :=
  !r.relaxed && earlier.any (fun e => decide (e.port = r.port) && decide (e.rid = r.rid) && !e.readOnly && !e.relaxed &&
    (match e.kind with | .arrival _ => false | .translation => false | _ => true))

/-- An arrival that reaches the root complex: taken at once, or left at its port. -/
def State.takeArrival (s : State) (port rid : Nat) (relaxed : Bool) (a : Arrival) : State :=
  let r : EndpointReq := { port := port, rid := rid, pasid := none, va := 0, readOnly := false, kind := .arrival a, relaxed := relaxed }
  let wait := { s.countArrival with endpoints := s.endpoints ++ [r] }
  if r.behind s.endpoints then wait else (s.countArrival.applyArrival a).getD wait

/-- Whether a bus address lies in the arrival window (11 R245), and a write of `size` bytes there: an MSI arrival, or discarded and
counted. -/
def State.inArrivalWindow (s : State) (bus : Nat) : Bool := decide (s.ctlNat .io 0 8 ≤ bus) && decide (bus < s.ctlNat .io 0 8 + 2 ^ 20)
def State.arrivalWrite (s : State) (port rid bus size : Nat) (relaxed : Bool) : State :=
  let off := bus - s.ctlNat .io 0 8
  let v := off / 16
  if size = 4 ∧ off % 16 = 0 ∧ s.boundWith v 1 = true ∧ (rid = s.vectorRid v ∨ bitsOf (s.vectorFlags v) 3 1 = 1) then
    s.takeArrival port rid relaxed (s.arrivalOf v)
  else s.dropArrival

/-- The arrival at a place of the port queue is tried again. -/
def State.retryArrival (s : State) (i : Nat) : State :=
  match s.endpoints[i]? with
  | some r =>
    (match r.kind with
     | .arrival a => if r.behind (s.endpoints.take i) then s else ({ s with endpoints := s.endpoints.eraseIdx i }.applyArrival a).getD s
     | _ => s)
  | none => s

/-- Whether a port refuses a request by ACS: with Source Validation, of a requester outside the bus numbers below the port; with Translation
Blocking, of a translated address (11 R238).
PRESUMED: log 151. -/
def State.acsRefused (s : State) (port rid : Nat) (translated : Bool) : Bool :=
  let p := Assoc.get {} s.portRegs port
  (p.acs.getLsbD 0 && (decide (rid / 256 < p.secondary.toNat) || decide (p.subordinate.toNat < rid / 256))) || (p.acs.getLsbD 1 && translated)

/-- A refused request of a port: an Unsupported Request for a read, a discard with an AER log for a write (11 R249). -/
def State.refusePort (s : State) (port rid : Nat) (write : Bool) : State :=
  let s1 := { s with aer := Assoc.set 0 s.aer port (Assoc.get 0 s.aer port + 1) }
  if write then s1 else { s1 with out := s1.out ++ [.unsupported port rid] }

/-- MSI_ARRIVAL: a posted write of an endpoint to the arrival window; with a place of the port queue, the arrival that waits there. -/
def execMsiArrival (s : State) : Host.Outcome State Fault Refusal :=
  let s1 := { s with input := .none }
  match s.input with
  | .arrive port rid bus size relaxed =>
    if !s.portOpen port || !s.inArrivalWindow bus then .next s1
    else if s.acsRefused port rid false then .next (s1.refusePort port rid true)
    else .next (s1.arrivalWrite port rid bus size relaxed)
  | .one i => .next (s1.retryArrival i)
  | _ => .next s1

/-- ARRIVAL_QUEUE_APPLY: the oldest arrival of a vector's object is applied once its object can be reached and written. -/
def execArrivalQueueApply (s : State) : Host.Outcome State Fault Refusal :=
  let s1 := { s with input := .none }
  match s.input with
  | .one v =>
    match s.arrivals.find? (fun a => decide (a.vector = v)) with
    | some a =>
      (match s.arrivalPlace a.job a.obj with
       | .at pa f =>
         if s.lineWaits pa || (s.arrivals.find? (fun x => x.meets a)) ≠ some a then .next s1
         else .next (((({ s1 with arrivals := s1.arrivals.erase a }).noteReach f).noteLost pa).externalArrival pa)
       | _ => .next s1)
    | none => .next s1
  | _ => .next s1

/-- The vector of the notify window that a hart physical address names; an address of module memory is memory.
DEDUCED: log 129. -/
def State.notifyVector (s : State) (addr : Nat) : Option Nat :=
  let base := s.ctlNat .io 8 8
  if !s.populated addr && decide (base ≤ addr) && decide (addr < base + 2 ^ 28) then some ((addr - base) / 4096) else none

/-- A notify store of a hart: an arrival on its vector, or discarded and counted. -/
def State.notifyStore (s : State) (hart v : Nat) (ordered : Bool) : State :=
  if s.boundWith v 2 then
    let r : HartReq := { hart := hart, mode := .m, mask := 0, addr := 0, write := true, len := 0, data := [], arrival := some (s.arrivalOf v)
                         ordered := ordered }
    let wait := { s.countArrival with hartq := s.hartq ++ [r] }
    if r.behind s.hartq then wait else (s.countArrival.applyArrival (s.arrivalOf v)).getD wait
  else s.dropArrival

/-- The notify store at a place of the harts' queue is tried again. -/
def State.retryNotify (s : State) (i : Nat) : State :=
  match s.hartq[i]? with
  | some r =>
    (match r.arrival with
     | some a => if r.behind (s.hartq.take i) then s else ({ s with hartq := s.hartq.eraseIdx i }.applyArrival a).getD s
     | none => s)
  | none => s

/-- Whether a number names one of the 32 harts (01 R13). -/
def isHart (h : Nat) : Bool := decide (h < 32)

/-- NOTIFY_ARRIVAL: a store to the notify window; with a place of the harts' queue, the notify store that waits there. -/
def execNotifyArrival (s : State) : Host.Outcome State Fault Refusal :=
  let s1 := { s with input := .none }
  match s.input with
  | .notify hart addr ordered =>
    (match s.notifyVector addr, hart with
     | some v, some h => if isHart h then .next (s1.notifyStore h v ordered) else .next s1
     | some _, none => .next s1.dropArrival
     | none, _ => .next s1)
  | .one i => .next (s1.retryNotify i)
  | _ => .next s1

/-- ARRCMD and ARRSTAT after a command: GO and BUSY clear, DONE or ERR set. -/
def State.arrEnd (s : State) (bit : Nat) : State :=
  ({ s with arrcmd := none }.ctlSet .io 0x40 8 (bitsOf (s.ctlNat .io 0x40 8) 0 17)).ctlSet .io 0x48 4
    (setBit (setBits (s.ctlNat .io 0x48 4) 0 1 0) bit)
def State.arrDone (s : State) : State := s.arrEnd 1
def State.arrErr (s : State) : State := s.arrEnd 2

/-- A command that waits: GO reads 1, and BUSY is set.
DEDUCED: log 66. -/
def State.arrHeld (s : State) (x : Nat) : State :=
  ({ s with arrcmd := some x }.ctlSet .io 0x40 8 (bitsOf x 0 17 + 2 ^ 63)).ctlSet .io 0x48 4 (setBit (s.ctlNat .io 0x48 4) 0)

/-- The value that ARRCMD keeps of a write. -/
def State.keepArrcmd (s : State) (x : Nat) : State := s.ctlSet .io 0x40 8 (bitsOf x 0 17)

/-- A step of ARRCMD: a write while no command waits, or the command that waits. -/
def arrcmdStep (s : State) (f : State → Nat → State) : Host.Outcome State Fault Refusal :=
  let s1 := { s with input := .none }
  match s.input, s.arrcmd with
  | .word x, none => .next (f s1 x)
  | .none, some x => .next (f s1 x)
  | _, _ => .next s1

/-- ARRCMD bind.
DEDUCED: log 64. -/
def execArrcmdBind (s : State) : Host.Outcome State Fault Refusal :=
  arrcmdStep s (fun s x =>
    let v := bitsOf x 0 16
    if bitsOf x 63 1 = 1 ∧ bitsOf x 16 1 = 0 then
      let s1 := s.keepArrcmd x
      if 65534 < v ∨ s.bound v = true ∨ s.vectorObj v % 16 ≠ 0 then s1.arrErr
      else
        match s.arrivalPlace (s.vectorJob v) (s.vectorObj v) with
        | .at pa f =>
          if bitsOf (s.signal pa) 17 1 = 1 then s1.arrErr
          else if s.lineWaits pa || s.lineWaits (s.vectorAt v) then s.arrHeld x
          else
            let signal := v + 2 ^ 17 + 2 ^ 16 * bitsOf (s.vectorFlags v) 2 1
            ((((s1.noteReach f).storeNat (pa + 8) 4 signal).touch pa).storeNat (s.vectorAt v + 0xC) 2 (setBit (s.vectorFlags v) 0)).arrDone
        | .held _ => s.arrHeld x
        | .refused t => (s1.noteConfig t (s.vectorJob v)).arrErr
    else s)

/-- ARRCMD unbind. BOUND clears when the command starts; SIGNAL is cleared once the object can be reached.
DEDUCED: log 65. -/
def execArrcmdUnbind (s : State) : Host.Outcome State Fault Refusal :=
  arrcmdStep s (fun s x =>
    let v := bitsOf x 0 16
    if bitsOf x 63 1 = 1 ∧ bitsOf x 16 1 = 1 then
      let s1 := s.keepArrcmd x
      if s.bound v && s.lineWaits (s.vectorAt v) then s.arrHeld x
      else if s.bound v || s.arrcmd.isSome then
        let s2 := s1.storeNat (s.vectorAt v + 0xC) 2 (setBits (s.vectorFlags v) 0 1 0)
        match s.arrivalPlace (s.vectorJob v) (s.vectorObj v) with
        | .at pa f => if s.lineWaits pa then s2.arrHeld x else (((s2.noteReach f).storeNat (pa + 8) 4 0).touch pa).arrDone
        | .held _ => s2.arrHeld x
        | .refused t => (s2.noteConfig t (s.vectorJob v)).arrDone
      else s1.arrErr
    else s)

/-! ### NTB peers (11 R252, R253) -/

/-- A port's NTB registers. -/
def State.ntbOn (s : State) (p : Nat) : Bool := decide (s.ctlNat .io (0x30B + 0x20 * p) 1 % 2 = 1)
def State.ntbKeys (s : State) (p : Nat) : BitVec 16 := BitVec.ofNat 16 (s.ctlNat .io (0x308 + 0x20 * p) 2) &&& 0x7FFD

/-- NTB_MAILBOX_WRITE: a peer's write to BAR0 of a port: a message register, or the DOE mailbox, through which an SPDM request reaches the
module (13 R305).
DEDUCED: log 68. -/
def execNtbMailboxWrite (s : State) : Host.Outcome State Fault Refusal :=
  let s1 := { s with input := .none }
  match s.input with
  | .mailbox port off size data relaxed =>
    if port < 8 ∧ s.ntbOn port = true ∧ s.portOpen port = true ∧ off < 0x10000 then
      let v := s.ctlNat .io (0x30C + 0x20 * port) 2 + off / 4
      if 0x1000 ≤ off then .next { s1 with agenda := s1.agenda ++ [(.spdmMeasurementRequest, .one port)] }
      else if size = 4 ∧ off % 4 = 0 ∧ off < 0x40 ∧ s.boundWith v 1 = true then
        .next ({ s1 with mailbox := Assoc.set 0 s1.mailbox (16 * port + off / 4) (w32 data) }.takeArrival port 0 relaxed (s.arrivalOf v))
      else .next s1.dropArrival
    else .next s1
  | _ => .next s1

/-- The key of a frame of module memory (11 R257). -/
def State.frameKey (s : State) (pa : Nat) : Nat :=
  let f := pa / 2 ^ 16
  if s.ctlNat .io 0x58 4 ≤ f then 0
  else
    let b := s.nat (s.ctlNat .io 0x50 8 + f / 2) 1
    if f % 2 = 0 then b % 16 else b / 16

/-- The first addresses of the frames that a span touches. -/
def framesOf (pa len : Nat) : List Nat := (spanPieces pa len).map (fun p => p.1)

/-- The cells of bytes from an address. -/
def cellsFrom (pa : Nat) (data : List Byte) : List Host.Cell := data.mapIdx (fun i b => (pa + i, b))

/-- Whether any sector of a span is poisoned, and whether any line of it is shackled. -/
def State.spanPoisoned (s : State) (pa len : Nat) : Bool := (List.range len).any (fun i => s.poisoned (pa + i))
def State.spanShackled (s : State) (pa len : Nat) : Bool := (List.range len).any (fun i => s.shackled (pa + i))

/-- The parts of an access of `n` bytes, each within one sector: offset and length (09 R192). -/
def sectorParts (a n : Nat) : List (Nat × Nat) :=
  (List.range ((a % 64 + n + 63) / 64)).map (fun i =>
    let lo := max a (64 * (a / 64 + i))
    (lo - a, min (a + n) (64 * (a / 64 + i) + 64) - lo))

/-- The answer to a read whose parts have all been read, and a write or a read that is over. -/
def EndpointReq.bytes (r : EndpointReq) : List Byte := (List.range r.len).map (fun i => (Assoc.find i r.got).getD 0)
def State.portDone (s : State) (r : EndpointReq) : State :=
  if r.readOnly then { s with out := s.out ++ [.completion r.port r.rid r.bytes] } else s

/-- A request that has been checked: over when it has no part, and otherwise at the end of the port queue. -/
def State.enqueue (s : State) (r : EndpointReq) (a n : Nat) : State :=
  if n = 0 then s.portDone r else { s with endpoints := s.endpoints ++ [{ r with checked := true, todo := sectorParts a n }] }

/-- The bytes that a request reads or writes. -/
def EndpointReq.size (r : EndpointReq) : Nat := if r.readOnly then r.len else r.data.length

/-- Whether a span of bytes touches the notify window. -/
def State.notified (s : State) (pa len : Nat) : Bool := (framesOf pa len).any (fun a => (s.notifyVector a).isSome)

/-- NTB_INBOUND_ACCESS: a peer's access through BAR2, against the frame keys, a write that reaches the notify window discarded and counted
(11 R248); or its read of a message register or of the DOE mailbox, whose bytes the DOE exchange defines.
DEDUCED: log 68. -/
def execNtbInboundAccess (s : State) : Host.Outcome State Fault Refusal :=
  let s1 := { s with input := .none }
  match s.input with
  | .inbound port off write len data relaxed =>
    if s.ntbOn port = true ∧ s.portOpen port = true then
      let pa := s.ctlNat .io (0x300 + 0x20 * port) 8 + off
      let r : EndpointReq := { port := port, rid := 0, pasid := none, va := pa, readOnly := !write, kind := .inbound, len := len, data := data
                               relaxed := relaxed }
      let keyed := (framesOf pa r.size).any (fun a => (keyRefusal (.endpoint (s.ntbKeys port)) write (s.frameKey a)).isSome)
      let hole := (framesOf pa r.size).find? (fun a => !s.populated a)
      if 2 ^ s.ctlNat .io (0x30A + 0x20 * port) 1 < off + r.size ∨ keyed = true then .next (s1.refusePort port 0 write)
      else if write && s.notified pa r.size then .next s1.dropArrival
      else
        match hole with
        | some a => .next ((s1.configError a).refusePort port 0 write)
        | none => .next (s1.enqueue r pa r.size)
    else .next s1
  | .mailboxRead port off size =>
    if s.ntbOn port = true ∧ s.portOpen port = true then
      if size = 4 ∧ off % 4 = 0 ∧ off < 0x40 then
        .next { s1 with out := s1.out ++ [.completion port 0 (leBytes 4 (Assoc.get (0 : Word) s.mailbox (16 * port + off / 4)).toNat)] }
      else if 0x1000 ≤ off ∧ off + size ≤ 0x10000 then
        .next { s1 with out := s1.out ++ [.completion port 0 ((List.range size).map (fun i => Config.freeByte s.fresh (off + i)))], fresh := s.fresh + 1 }
      else .next (s1.refusePort port 0 false)
    else .next s1
  | _ => .next s1

/-! ### The doorbell proxy (11 R242 to R244) -/

/-- Sets or clears bit `i` of a queue's completion bitmap. -/
def State.setMark (s : State) (q i : Nat) (b : Bool) : State :=
  let a := s.ctlNat .io (dq q + 8) 8 + i / 8
  s.storeNat a 1 (setBits (s.nat a 1) (i % 8) 1 (b2n b))

/-- The marks that a commit takes, from entry `t`, by fuel: the state and the new tail. -/
def takeMarks (q depth : Nat) : Nat → State → Nat → State × Nat
  | 0, s, t => (s, t)
  | fuel + 1, s, t => if s.bmapBit q t then takeMarks q depth fuel (s.setMark q t false) ((t + 1) % depth) else (s, t)

/-- COMMIT of a queue. -/
def State.commit (s : State) (q : Nat) : State :=
  let t := s.ctlNat .io (dq q + 0x24) 4
  let r := takeMarks q (s.ctlNat .io (dq q + 0x18) 4) (s.ctlNat .io (dq q + 0x18) 4) s t
  if r.2 = t then r.1
  else
    let s1 := r.1.ctlSet .io (dq q + 0x24) 4 r.2
    { s1 with out := s1.out ++ [.tailWrite (s.ctlNat .io (dq q) 8) r.2] }

/-- Whether the bitmap of a queue can be written: the lines that hold its marks do not wait. -/
def State.bmapServed (s : State) (q : Nat) : Bool :=
  let b := s.ctlNat .io (dq q + 8) 8
  (List.range ((b % 256 + (s.ctlNat .io (dq q + 0x18) 4 + 7) / 8 + 255) / 256)).all (fun i => !s.lineWaits (256 * (b / 256 + i)))

/-- DOORBELL_MARK of a DBELL in flight, once its group's earlier accesses have taken effect and the bitmap can be written. -/
def execDoorbellMark (s : State) : Host.Outcome State Fault Refusal :=
  let s1 := { s with input := .none }
  match s.input with
  | .one id =>
    match Assoc.find id s.bells with
    | some b =>
      if s.engineReady b.group b.po b.owner && s.bmapServed b.queue then
        let s2 := { s1 with bells := Assoc.del id s1.bells }.setMark b.queue b.index true
        .next ((s2.mapGroup b.group (fun g => g.ctrDown .io)).commit b.queue)
      else .next s1
    | none => .next s1
  | _ => .next s1

/-- TAIL_WRITE_FAILED of a queue. -/
def execTailWriteFailed (s : State) : Host.Outcome State Fault Refusal :=
  let s1 := { s with input := .none }
  match s.input with
  | .one q => .next ((s1.raiseBit .io (dq q + 0x28) 1).configError (s.ctlNat .io (dq q) 8))
  | _ => .next s1

/-- DQ_ENABLE of a queue: TAIL takes TAILINIT and the bitmap's first DEPTH bits are cleared. -/
def execDqEnable (s : State) : Host.Outcome State Fault Refusal :=
  let s1 := { s with input := .none }
  match s.input with
  | .one q =>
    if q < 4096 ∧ s.ctlNat .io (dq q + 0x28) 4 % 2 = 0 ∧ s.bmapServed q = true then
      let s2 := (s1.ctlSet .io (dq q + 0x24) 4 (s.ctlNat .io (dq q + 0x20) 4)).raiseBit .io (dq q + 0x28) 0
      .next ((List.range (s.ctlNat .io (dq q + 0x18) 4)).foldl (fun s i => if s.bmapBit q i then s.setMark q i false else s) s2)
    else .next s1
  | _ => .next s1

/-! ### Translation for endpoints (11 R249) -/

/-- The PASID table's entry of a port and PASID. -/
def State.pasidAt (s : State) (port n : Nat) : Nat := s.ctlNat .io 0x20 8 + 16 * (65536 * port + n)
def State.pasidJob (s : State) (port n : Nat) : Nat := s.nat (s.pasidAt port n) 2
def State.pasidKeys (s : State) (port n : Nat) : BitVec 16 := BitVec.ofNat 16 (s.nat (s.pasidAt port n + 2) 2) &&& 0x7FFD
def State.pasidRid (s : State) (port n : Nat) : Nat := s.nat (s.pasidAt port n + 4) 2
def State.pasidFlag (s : State) (port n i : Nat) : Bool := decide (bitsOf (s.nat (s.pasidAt port n + 6) 2) i 1 = 1)

/-- Whether an entry serves a requester. -/
def State.pasidServes (s : State) (port n rid : Nat) : Bool :=
  s.pasidFlag port n 0 && decide (s.pasidRid port n = rid) && s.jobLive (s.pasidJob port n)

/-- The configuration-error report of a request for a job that is not live (10 R211). -/
def State.deadJob (s : State) (port n rid : Nat) : State :=
  if s.pasidFlag port n 0 && decide (s.pasidRid port n = rid) && !s.jobLive (s.pasidJob port n) then
    s.configError (s.contextAddr (s.pasidJob port n)) (s.pasidJob port n)
  else s

/-- The translation of an endpoint's address; global memory alone. -/
def State.endpointPlace (s : State) (port n va : Nat) (write : Bool) : Reach :=
  if va < 0x00FA000000000000 then
    match (walk s (.endpoint (s.pasidKeys port n)) (s.pasidJob port n) va write).place s va write with
    | .here flat (some f) => .at flat f
    | .held p => .held p
    | .fault t => .refused t
    | _ => .refused (windowFault va write)
  else .refused (windowFault va write)

/-- A refusal by a key posts a domain-fault report. -/
def State.endpointFault (s : State) (port n : Nat) (t : Trap) : State :=
  let s1 := if t.kind = 0x07 then s.report 0 { jobid := s.pasidJob port n, faultword := t.faultword none 0, faddr := t.addr } else s
  s1.noteConfig t (s.pasidJob port n)

/-- The answer to a translation request.
DEDUCED: log 67. -/
def State.atsAnswer (s : State) (r : EndpointReq) (pa log : Nat) (rd wr : Bool) : State :=
  { s with out := s.out ++ [.atsAnswer r.port r.rid r.pasid (r.va / 2 ^ 16 * 2 ^ 16) pa log rd wr] }

/-- Whether a request asks for what the root complex does not honour: a feature that it lacks, Execute or Privileged Mode, a PASID above
65,535, or more bytes than its limits (11 R238).
DEDUCED: log 135. -/
def EndpointReq.beyond (r : EndpointReq) : Bool :=
  r.unsupported || r.execute || r.privileged || decide (65535 < r.pasid.getD 0) || decide (4096 < r.len) || decide (512 < r.data.length)

/-- Whether a request is posted: it has no completion. -/
def EndpointReq.posted (r : EndpointReq) : Bool := !r.readOnly && (match r.kind with | .translation => false | _ => true)

/-- Whether a port has as many non-posted requests open as it can have (11 R238): it takes no further one.
DEDUCED: log 135. -/
def State.tagsFull (s : State) (port : Nat) : Bool :=
  decide (4096 ≤ s.endpoints.countP (fun e => decide (e.port = port) && !e.posted))

/-- A translation request is served, or waits for a migrating page; the request that still waits. -/
def State.serveAts (s : State) (r : EndpointReq) : State × Option EndpointReq :=
  let n := r.pasid.getD 0
  if r.beyond || s.acsRefused r.port r.rid false then (s.refusePort r.port r.rid false, none)
  else if !s.pasidServes r.port n r.rid then ((s.deadJob r.port n r.rid).refusePort r.port r.rid false, none)
  else if !r.readOnly && !s.pasidFlag r.port n 1 then (s.atsAnswer r 0 16 false false, none)
  else
    match s.endpointPlace r.port n r.va (!r.readOnly) with
    | .at _ f =>
      let log := levelShift f.level
      ((s.setAD f (!r.readOnly)).atsAnswer r (f.pa / 2 ^ log * 2 ^ log) log true (!r.readOnly), none)
    | .held _ => (s, some r)
    | .refused t => ((s.endpointFault r.port n t).atsAnswer r 0 16 false false, none)

/-- What each page of an endpoint's access reaches. -/
def State.endpointPieces (s : State) (r : EndpointReq) : List Reach :=
  (spanPieces r.va r.size).map (fun p => s.endpointPlace r.port (r.pasid.getD 0) p.1 (!r.readOnly))

/-- A memory request is checked: an arrival-window write, refused, a write that leads to the notify window discarded and counted (11 R248), or
taken to be performed sector by sector.
DEDUCED: log 70. -/
def State.checkMemory (s : State) (r : EndpointReq) : State :=
  let n := r.pasid.getD 0
  if r.beyond || s.acsRefused r.port r.rid false then s.refusePort r.port r.rid r.posted
  else if r.pasid.isNone && s.inArrivalWindow r.va then
    (if r.readOnly then s.refusePort r.port r.rid false else s.arrivalWrite r.port r.rid r.va r.data.length r.relaxed)
  else if !s.pasidServes r.port n r.rid then (s.deadJob r.port n r.rid).refusePort r.port r.rid r.posted
  else if !r.readOnly && !s.pasidFlag r.port n 1 then s.refusePort r.port r.rid true
  else
    match (s.endpointPieces r).findSome? (fun p => match p with | .refused t => some t | _ => none) with
    | some t => if !r.readOnly && (t.cfg.bind s.notifyVector).isSome then s.dropArrival else (s.endpointFault r.port n t).refusePort r.port r.rid r.posted
    | none => s.enqueue r r.va r.size

/-- A memory request with a translated address is checked: a store to the notify window is discarded and counted (11 R248), and an address
that leads to no memory is refused.
DEDUCED: log 136. -/
def State.checkTranslated (s : State) (r : EndpointReq) : State :=
  if r.beyond || s.acsRefused r.port r.rid true then s.refusePort r.port r.rid r.posted
  else if !r.readOnly && s.notified r.va r.size then s.dropArrival
  else
    match (framesOf r.va r.size).find? (fun a => !s.populated a) with
    | some a => (s.configError a).refusePort r.port r.rid r.posted
    | none => s.enqueue r r.va r.size

/-- The place of one part of a request that has been checked: physical for a peer's access and for a translated address. -/
def State.partPlace (s : State) (r : EndpointReq) (a : Nat) : Reach :=
  if r.kind = .inbound ∨ r.kind = .translated then
    (if s.homeWaits a then .held a else .at a { pa := a, pte := 0, entry := 0, level := 0, cached := true })
  else s.endpointPlace r.port (r.pasid.getD 0) a (!r.readOnly)

/-- One part of a request takes effect: the state after, and what is left of the request. It waits while its page migrates, its home is
stalled or, for a write, a line is shackled; a refusal met only now ends the request. -/
def State.accessPart (s : State) (r : EndpointReq) (p : Nat × Nat) : State × Option EndpointReq :=
  match s.partPlace r (r.va + p.1) with
  | .held _ => (s, some r)
  | .refused t => ((s.endpointFault r.port (r.pasid.getD 0) t).refusePort r.port r.rid r.posted, none)
  | .at flat f =>
    if !r.readOnly && s.spanShackled flat p.2 then (s, some r)
    else if r.readOnly && s.spanPoisoned flat p.2 then (s.refusePort r.port r.rid false, none)
    else
      let s1 := if f.cached then s else s.setAD f (!r.readOnly)
      let s2 := if r.readOnly then s1 else (s1.softwareStore (cellsFrom flat ((r.data.drop p.1).take p.2))).markOutside
      let r1 := { r with
        todo := r.todo.erase p
        got := if r.readOnly then r.got ++ (memBytes s.mem flat p.2).mapIdx (fun i b => (p.1 + i, b)) else [] }
      if r1.todo.isEmpty then (s2.portDone r1, none) else (s2, some r1)

/-- What is left of the request at a place of the port queue. -/
def State.leavePort (s : State) (i : Nat) : Option EndpointReq → State
  | some r => { s with endpoints := s.endpoints.set i r }
  | none => { s with endpoints := s.endpoints.eraseIdx i }

/-- The translation request at a place of the port queue is served again, and the part of the memory request there takes effect. -/
def State.retryAts (s : State) (i : Nat) : State :=
  match s.endpoints[i]? with
  | some r => if r.kind = .translation then (s.serveAts r).1.leavePort i (s.serveAts r).2 else s
  | none => s
def State.retryPart (s : State) (i k : Nat) : State :=
  match s.endpoints[i]? with
  | some r => (match r.todo[k]? with | some p => (s.accessPart r p).1.leavePort i (s.accessPart r p).2 | none => s)
  | none => s

/-- ATS_TRANSLATION_REQUEST; with a place of the port queue, the request that waits there. -/
def execAtsTranslationRequest (s : State) : Host.Outcome State Fault Refusal :=
  let s1 := { s with input := .none }
  match s.input with
  | .endpoint r =>
    if decide (r.kind = .translation) && s.portOpen r.port && !s.tagsFull r.port then
      (match s1.serveAts r with
       | (s2, some w) => .next { s2 with endpoints := s2.endpoints ++ [w] }
       | (s2, none) => .next s2)
    else .next s1
  | .one i => .next (s1.retryAts i)
  | _ => .next s1

/-- ENDPOINT_MEMORY_REQUEST; with a place of the port queue and a part, that part takes effect.
DEDUCED: log 74. -/
def execEndpointMemoryRequest (s : State) : Host.Outcome State Fault Refusal :=
  let s1 := { s with input := .none }
  match s.input with
  | .endpoint r =>
    if r.checked || !s.portOpen r.port || (!r.posted && s.tagsFull r.port) then .next s1
    else
      match r.kind with
      | .memory => .next (s1.checkMemory r)
      | .translated => .next (s1.checkTranslated r)
      | _ => .next s1
  | .two i k => .next (s1.retryPart i k)
  | _ => .next s1

/-! ### Page requests (11 R250) -/

/-- PAGE_REQUEST: a record for the page request ring; a request that its entry does not permit is discarded with an AER log. -/
def execPageRequest (s : State) : Host.Outcome State Fault Refusal :=
  let s1 := { s with input := .none }
  match s.input with
  | .pageRequest port rid pasid va rd wr last prgi special =>
    let n := pasid.getD 0
    if !s.portOpen port then .next s1
    else if special || decide (65535 < n) || s.acsRefused port rid false then .next (s1.refusePort port rid true)
    else if s.pasidServes port n rid && s.pasidFlag port n 2 then
      let flags := b2n rd + 2 * b2n wr + 4 * b2n last + 8 * b2n pasid.isSome
      .next (s1.post 2 (leBytes 2 (s.pasidJob port n) ++ leBytes 1 port ++ leBytes 1 flags ++ leBytes 2 rid ++ leBytes 2 (prgi % 512) ++
        leBytes 4 n ++ leBytes 4 0 ++ leBytes 8 (va / 2 ^ 16 * 2 ^ 16) ++ leBytes 8 0))
    else .next ((s1.deadJob port n rid).refusePort port rid true)
  | _ => .next s1

/-- PRGRESP. -/
def execPrgresp (s : State) : Host.Outcome State Fault Refusal :=
  commandStep s (fun s x =>
    if bitsOf x 63 1 = 1 then
      { s with out := s.out ++ [.prgResponse (bitsOf x 45 3) (bitsOf x 0 16) (bitsOf x 32 9) (bitsOf x 41 4)
          (if bitsOf x 62 1 = 1 then some (bitsOf x 16 16) else none)] }
    else s)

/-! ### Endpoint invalidations and the root ports (11 R238, R251, R253) -/

/-- ATS_INVALIDATE_COMPLETION of a function: one of its requests is complete. -/
def execAtsInvalidateCompletion (s : State) : Host.Outcome State Fault Refusal :=
  let s1 := { s with input := .none }
  match s.input, s.invalidation with
  | .completion port rid, some v =>
    let hit := v.awaiting.find? (fun x => decide (x.1 = port) && decide (x.2.1 = rid))
    (match hit with
     | some x => .next { s1 with invalidation := some { v with awaiting := v.awaiting.erase x } }
     | none => .next s1)
  | _, _ => .next s1

/-- A root port is contained by DPC.
DEDUCED: log 72. -/
def State.contain (s : State) (port : Nat) : State := { s with contained := Assoc.set false s.contained port true }

/-- ATS_INVALIDATE_TIMEOUT: the ports of functions that have not answered within IVTIMEOUT µs are contained, each with a report that
names it; 800 cycles of local time make a µs (01 R4).
DEDUCED: log 71. -/
def execAtsInvalidateTimeout (s : State) : Host.Outcome State Fault Refusal :=
  let s1 := { s with input := .none }
  match s.invalidation with
  | some v =>
    if v.awaiting ≠ [] ∧ v.since + 800 * s.ctlNat .io 0x1C 4 ≤ s.clock then
      let ports := (v.awaiting.map (fun x => x.1)).eraseDups
      .next { ports.foldl (fun s p => (s.contain p).configError p) s1 with invalidation := some { v with awaiting := [] } }
    else .next s1
  | none => .next s1

/-- DPC_CONTAINMENT of a port on an uncorrectable error, which is logged; with a second number other than 0, on the surprise removal of
the device, whose link goes down (11 R238). -/
def execDpcContainment (s : State) : Host.Outcome State Fault Refusal :=
  let s1 := { s with input := .none }
  let logged (p : Nat) : State := { s1 with aer := Assoc.set 0 s1.aer p (Assoc.get 0 s1.aer p + 1) }
  match s.input with
  | .one p => .next ((logged p).contain p)
  | .two p removed =>
    if removed = 0 then .next ((logged p).contain p)
    else .next ({ logged p with links := Assoc.set false s1.links p false }.contain p)
  | _ => .next s1

/-- DPC_RELEASE of a port. -/
def execDpcRelease (s : State) : Host.Outcome State Fault Refusal :=
  let s1 := { s with input := .none }
  match s.input with
  | .one p => .next { s1 with contained := Assoc.set false s1.contained p false }
  | _ => .next s1

/-- PORT_LINK_UP: the port's message registers read 0 again, and it takes requests; a contained port only after its release (11 R251). -/
def execPortLinkUp (s : State) : Host.Outcome State Fault Refusal :=
  let s1 := { s with input := .none }
  match s.input with
  | .one p =>
    .next { s1 with
      links := Assoc.set false s1.links p true
      mailbox := s1.mailbox.filter (fun x => decide (x.1 / 16 ≠ p)) }
  | _ => .next s1

end Sys2Proof.Machine
end

