-- ==== Sys2Proof/Machine/Migrate.lean ====
section
/-! DEFINITION. Invalidations (10 R212, R217, R218; 07 R156; 11 R251) and migrations (10 R231, R232; 11 R255). -/

namespace Sys2Proof.Machine

/-! ### Invalidations (10 R218) -/

/-- The functions that an invalidation with ENDPT reaches: those of the valid PASID entries of its job, or of every job (11 R251). An
entry can be valid only where memory lists a byte. -/
def State.functionsOf (s : State) (kind job : Nat) : List (Nat × Nat × Nat) :=
  let base := s.ctlNat .io 0x20 8
  let es := (s.mem.filter (fun c => decide (base ≤ c.1) && decide (c.1 < base + 2 ^ 23) && decide ((c.1 - base) % 16 = 6))).map
    (fun c => (c.1 - base) / 16)
  es.filterMap (fun e =>
    let p := e / 65536
    let n := e % 65536
    if s.pasidFlag p n 0 && (decide (kind = 3) || decide (s.pasidJob p n = job)) then some (p, s.pasidRid p n, n) else none)

/-- Whether an invalidation covers a 64 KiB page of a job. -/
def Invalidation.covers (v : Invalidation) (job page : Nat) : Bool :=
  if v.kind = 3 then true
  else if v.kind = 2 then decide (job = v.job)
  else decide (job = v.job) && decide (v.va / 2 ^ 16 ≤ page) && decide (page < v.va / 2 ^ 16 + 2 ^ v.log)

/-- Whether an invalidation covers a page that a held node entry leads to. -/
def Invalidation.coversNode (v : Invalidation) (n : NodeCached) : Bool :=
  let pages := 2 ^ (levelShift n.level - 16)
  if v.kind = 3 then true
  else if v.kind = 2 then decide (n.job = v.job)
  else decide (n.job = v.job) && decide (v.va / 2 ^ 16 < (n.high + 1) * pages) && decide (n.high * pages < v.va / 2 ^ 16 + 2 ^ v.log)

/-- A group whose last-page registers hold no covered translation. -/
def Invalidation.clears (v : Invalidation) (g : Group) : Group :=
  { g with lastPage := g.lastPage.filter (fun x => !v.covers g.job x.2.page) }

/-- INVCMD of a KIND with GO: the invalidation starts unless one is in progress. -/
def State.startInvalidation (s : State) (kind x : Nat) : State :=
  if bitsOf x 31 1 = 1 ∧ bitsOf x 0 2 = kind ∧ s.invalidation = none then
    let job := s.ctlNat .trans 0x38 2
    let endpt := decide (bitsOf x 2 1 = 1)
    let fs := if endpt then s.functionsOf kind job else []
    let v : Invalidation :=
      { kind := kind, job := job, va := s.ctlNat .trans 0x30 8, log := if kind = 1 then bitsOf x 8 5 else 0, endpt := endpt
        awaiting := fs, since := s.clock }
    let s1 := (s.ctlSet .trans 0x3C 4 (bitsOf x 0 3 + 2 ^ 8 * bitsOf x 8 5 + 2 ^ 31)).raiseBit .trans 0x40 0
    let log := if kind ≤ 1 then 16 + v.log else 56
    let va := if kind ≤ 1 then v.va else 0
    { s1 with invalidation := some v, out := s1.out ++ fs.map (fun f => .atsInvalidate f.1 f.2.1 f.2.2 va log) }
  else s

/-- INVCMD KIND 0. -/
def execInvalidatePage (s : State) : Host.Outcome State Fault Refusal := commandStep s (fun s x => s.startInvalidation 0 x)

/-- INVCMD KIND 1. -/
def execInvalidateRange (s : State) : Host.Outcome State Fault Refusal := commandStep s (fun s x => s.startInvalidation 1 x)

/-- INVCMD KIND 2. -/
def execInvalidateJob (s : State) : Host.Outcome State Fault Refusal := commandStep s (fun s x => s.startInvalidation 2 x)

/-- INVCMD KIND 3. -/
def execInvalidateAll (s : State) : Host.Outcome State Fault Refusal := commandStep s (fun s x => s.startInvalidation 3 x)

/-- Whether a group belongs to what an invalidation covers. -/
def Invalidation.reaches (v : Invalidation) (g : Group) : Bool := decide (v.kind = 3) || decide (g.job = v.job)

/-- Whether an access of a covered group is still on its way to global memory of this module: it used a translation made before; an ALLOC or
FREE that used one has still to be made. -/
def State.accessesOpen (s : State) (v : Invalidation) : Bool :=
  s.ops.any (fun o =>
    (match Assoc.find o.2.group s.groups with | some g => v.reaches g | none => false) &&
    o.2.accs.any (fun a => a.2.chip.isNone && a.2.addrs.any (fun x => decide (x < 2 ^ 52)))) ||
  s.locks.any (fun l =>
    (match l.2.op with | .mcas _ _ _ => false | _ => true) &&
    (match Assoc.find l.2.group s.groups with | some g => v.reaches g && l.2.vas.any (fun va => v.covers g.job (transVa va / 2 ^ 16)) | none => false)) ||
  s.groups.any (fun x => v.reaches x.2 && (match x.2.matrixOp with
    | some o => o.pages.any (fun p => decide (p.2 < 2 ^ 52) && v.covers x.2.job p.1)
    | none => false))

/-- An MCAS with a covered translation, which has not locked all its lines, releases them and restarts at its translations
(08 R188). -/
def State.restartLocks (s : State) (v : Invalidation) : State :=
  let hit (l : Lock) : Bool := match Assoc.find l.group s.groups with
    | some g => v.reaches g && (match l.op with | .mcas _ _ _ => true | _ => false) && l.vas.any (fun va => v.covers g.job (transVa va / 2 ^ 16))
    | none => false
  { s with locks := s.locks.map (fun l : Nat × Lock => if hit l.2 then (l.1, { l.2 with restart := true }) else l) }

/-- INVALIDATION_COMPLETE: no endpoint is awaited and no access of a covered group is on its way; the covered translations are dropped.
DEDUCED: log 84. -/
def execInvalidationComplete (s : State) : Host.Outcome State Fault Refusal :=
  let s1 := { s with input := .none }
  match s.invalidation with
  | some v =>
    if v.awaiting = [] ∧ s.accessesOpen v = false then
      let s2 := { s1 with
        invalidation := none
        tlb := s1.tlb.filter (fun t => !v.covers t.job t.page)
        nodes := s1.nodes.filter (fun n => !v.coversNode n)
        groups := s1.groups.map (fun x : Nat × Group => (x.1, v.clears x.2)) }.restartLocks v
      .next ((s2.ctlSet .trans 0x3C 4 (setBits (s2.ctlNat .trans 0x3C 4) 31 1 0)).ctlSet .trans 0x40 4
        (setBit (setBits (s2.ctlNat .trans 0x40 4) 0 1 0) 1))
    else .next s1
  | none => .next s1

/-! ### Migrations (10 R231) -/

/-- The entries of memory in a node that lead to nodes: their addresses' nodes. -/
def State.childNodes (s : State) (node : Nat) : List Nat :=
  let es := (s.mem.filter (fun c => decide (node ≤ c.1) && decide (c.1 < node + 8192) && decide (c.1 % 8 = 0))).map (fun c => s.nat c.1 8)
  (es.filter (fun e => pteV e && !pteLeaf e)).map pteAddr

/-- The level-0 nodes of the live jobs. -/
def State.rootNodes (s : State) : List Nat :=
  let base := s.ctlNat .trans 0 8
  let js := (s.mem.filter (fun c => decide (base ≤ c.1) && decide (c.1 < base + 2 ^ 22) && decide ((c.1 - base) % 64 = 0))).map (fun c =>
    (c.1 - base) / 64)
  (js.filter s.jobLive).map (fun j => bitsOf (s.jobRoot j) 13 39 * 2 ^ 13)

/-- The level of the page table at which an entry stands: the first whose nodes hold it, and 3 for one that no live job's table holds.
DEDUCED: log 85. -/
def State.levelOf (s : State) (pte : Nat) : Nat :=
  let n0 := s.rootNodes
  let n1 := n0.flatMap s.childNodes
  let n2 := n1.flatMap s.childNodes
  let has (ns : List Nat) : Bool := ns.any (fun n => decide (n ≤ pte) && decide (pte < n + 8192))
  if has n0 then 0 else if has n1 then 1 else if has n2 then 2 else 3

/-- The bytes that an entry maps: a page, a larger leaf, or a node. -/
def frameSize (level e : Nat) : Nat := if isLeafAt level e then 2 ^ levelShift level else 8192

/-- Ends the command in progress with a status bit. -/
def State.endMigration (s : State) (bit : Nat) : State :=
  (s.ctlSet .trans 0x44 4 0).ctlSet .trans 0x58 4 (setBit (setBits (s.ctlNat .trans 0x58 4) 0 1 0) bit)

/-- MIGRATION_START: MIGCMD.GO. -/
def execMigrationStart (s : State) : Host.Outcome State Fault Refusal :=
  let s1 := { s with input := .none }
  if s.migration.isSome then .next s1
  else
    let pte := s.ctlNat .trans 0x48 8
    let new := s.ctlNat .trans 0x50 8
    let old := s.nat pte 8
    let level := s.levelOf pte
    if (inHbm pte || inTier2 pte) && decide (pte % 8 = 0) && pteMig old && !pteMig new && !(pteV new && malformed level new) then
      let m : Migration := { pte := pte, old := old, new := new, level := level }
      .next (({ s1 with migration := some m }.ctlSet .trans 0x44 4 1).raiseBit .trans 0x58 0)
    else .next (s1.endMigration 2)

/-- Whether an address lies in the old frame of a migration. -/
def Migration.inOld (m : Migration) (a : Nat) : Bool := decide (pteAddr m.old ≤ a) && decide (a < pteAddr m.old + frameSize m.level m.old)

/-- Whether a home of the lines of a frame waits (13 R292, R308). -/
def State.frameWaits (s : State) (a size : Nat) : Bool := (List.range ((size + 255) / 256)).any (fun i => s.homeWaits (a + 256 * i))

/-- Whether a line of a frame is shackled (07 R157). -/
def State.frameShackled (s : State) (a size : Nat) : Bool :=
  s.groups.any (fun x => match x.2.matrixOp with
    | some o => o.lines.any (fun l => decide (a ≤ 256 * l.1) && decide (256 * l.1 < a + size) && x.2.holdsLine o l.1)
    | none => false)

/-- Whether the drain handshake is complete: no access to the old frame is on its way, no shackle and no lock stands on it, and no home of
its lines waits (13 R292). -/
def State.drained_ (s : State) (m : Migration) : Bool :=
  !s.frameWaits (pteAddr m.old) (frameSize m.level m.old) &&
  s.ops.all (fun o => o.2.accs.all (fun a => a.2.chip.isSome || a.2.addrs.all (fun x => !m.inOld x))) &&
  s.groups.all (fun x =>
    match x.2.matrixOp with
    | some o => o.pages.all (fun p => !m.inOld p.2) && o.lines.all (fun l => !m.inOld (256 * l.1))
    | none => true) &&
  s.locks.all (fun l =>
    match l.2.op with
    | .mcas _ _ es => es.all (fun e => !m.inOld e.1)
    | .alloc _ d _ => !m.inOld d
    | .free _ d _ => !m.inOld d)

/-- Objects of the old frame are those of the new one: the waits of parked groups and the device's notes follow them. -/
def Migration.follow (m : Migration) (pa : Nat) : Nat := if m.inOld pa then pa - pteAddr m.old + pteAddr m.new else pa
def State.followObjects (s : State) (m : Migration) : State :=
  { s with
    groups := s.groups.map (fun x : Nat × Group =>
      match x.2.wait with
      | .object kd pa st u what => (x.1, { x.2 with wait := .object kd (m.follow pa) st u what })
      | _ => x)
    touched := s.touched.map m.follow
    walked := s.walked.map (fun w => ({ w.1 with pa := m.follow w.1.pa }, w.2))
    objs := s.objs.map (fun x => (m.follow x.1, x.2))
    waiters := s.waiters.map (fun x => (m.follow x.1, m.follow x.2.1, x.2.2))
    msgs := s.msgs.map (fun x => { x with lo := m.follow x.lo })
    finished := s.finished.map (fun x => (x.1, x.2.1, m.follow x.2.2.1, x.2.2.2))
    cancels := s.cancels.map (fun x => (x.1, x.2.1, m.follow x.2.2.1, x.2.2.2)) }

/-- The held accesses of the range are released: tickets of migrating pages close, waiting requests are served. Groups, admissions,
engine operations and endpoints' requests walk again when they next proceed. -/
def State.releaseHeld (s : State) : State :=
  let ts := s.tickets.filter (fun t => t.2.migrating)
  (ts.foldl (fun s t =>
    match walk s (.device 0xFFFF) t.2.job (2 ^ 16 * t.2.page) false with
    | .held _ => s
    | _ => s.closeTicket t.1 t.2 0) s).serveWaiting

/-- The entry is stored, held accesses are released, and the command is DONE.
DEDUCED: log 86. -/
def State.finishMigration (s : State) (m : Migration) : State :=
  (({ s with migration := none }.agentStore (cellsOf m.pte 8 m.new)).releaseHeld).endMigration 1

/-- Whether the entry of a migration can be stored: its line does not wait. -/
def State.entryServed (s : State) (m : Migration) : Bool := !s.lineWaits m.pte

/-- MIGRATION_DRAIN_DONE: the copy may start, or for an eviction the entry is stored and the migration ends. -/
def execMigrationDrainDone (s : State) : Host.Outcome State Fault Refusal :=
  let s1 := { s with input := .none }
  match s.migration with
  | some m =>
    if s.drained_ m && !m.drained then
      if pteV m.new then .next { s1 with migration := some { m with drained := true } }
      else if s.entryServed m then .next (s1.finishMigration m)
      else .next s1
    else .next s1
  | none => .next s1

/-- The old frame's bytes and poison copied to the new frame. -/
def State.copyFrame (s : State) (m : Migration) : State :=
  let size := frameSize m.level m.old
  let a := pteAddr m.old
  let b := pteAddr m.new
  let out (x : Nat) : Bool := !(decide (b ≤ x) && decide (x < b + size))
  let mem := s.mem.filter (fun c => out c.1)
  let poison := s.poison.filter (fun c => out (64 * c.1))
  { s with
    base := s.tick
    mem := (s.mem.filter (fun c => decide (a ≤ c.1) && decide (c.1 < a + size))).foldl (fun t c => memSet t (c.1 - a + b) c.2) mem
    poison := (s.poison.filter (fun c => decide (a ≤ 64 * c.1) && decide (64 * c.1 < a + size))).foldl
      (fun t c => Assoc.set false t ((64 * c.1 - a + b) / 64) true) poison }

/-- Whether the copy of a frame can be made and its entry stored: the homes of both frames serve, and no line of the new one is shackled. -/
def State.copyServed (s : State) (m : Migration) : Bool :=
  let size := frameSize m.level m.old
  s.entryServed m && !s.frameWaits (pteAddr m.old) size && !s.frameWaits (pteAddr m.new) size && !s.frameShackled (pteAddr m.new) size

/-- MIGRATION_COPY_DONE: the frame has been copied, MIGNEW is stored, and what was held is released. -/
def execMigrationCopyDone (s : State) : Host.Outcome State Fault Refusal :=
  let s1 := { s with input := .none }
  match s.migration with
  | some m => if m.drained && s.copyServed m then .next (((s1.copyFrame m).followObjects m).finishMigration m) else .next s1
  | none => .next s1

end Sys2Proof.Machine
end

