-- ==== Sys2Proof/Machine/Boot.lean ====
section
/-! DEFINITION. Weight generations, the weight store, rate points and caps, power-on and measurement, pod boot, soft errors and spares
(13 R290 to R308). -/

namespace Sys2Proof.Machine

/-! ### Weight generations (13 R301, R302) -/

/-- GEN, STATE and REFS of a slot of the weight handle table. -/
def State.slotGen (s : State) (n : Nat) : Nat := s.nat (s.weightSlot n) 4
def State.slotState (s : State) (n : Nat) : Nat := s.nat (s.weightSlot n + 4) 1
def State.slotRefs (s : State) (n : Nat) : Nat := s.nat (s.weightSlot n + 8) 4

/-- The current slot, when WHCUR is valid. -/
def State.currentSlot (s : State) : Option Nat :=
  if bitsOf (s.ctlNat .memctl 0x428 4) 8 1 = 1 then some (bitsOf (s.ctlNat .memctl 0x428 4) 0 4) else none

/-- The generation after one: 0 is skipped. -/
def nextGeneration (g : Nat) : Nat := if (g + 1) % 2 ^ 32 = 0 then 1 else (g + 1) % 2 ^ 32

/-- Whether a switch to slot `n` is accepted. -/
def State.switchable (s : State) (n : Nat) : Bool :=
  (decide (s.slotState n = 0) || decide (s.slotState n = 3)) && decide (s.slotGen n % 16 = n) && decide (s.slotGen n ≠ 0) &&
  (match s.currentSlot with
   | some c => decide (s.slotGen n = nextGeneration (s.slotGen c))
   | none => true)

/-- The old current slot drains, or retires when nothing holds it. -/
def State.retireSlot (s : State) (n : Nat) : State :=
  if s.slotRefs n = 0 then (s.storeNat (s.weightSlot n + 4) 1 3).raiseBit .memctl 0x430 3 else s.storeNat (s.weightSlot n + 4) 1 2

/-- An accepted switch to slot `n`. -/
def State.switchTo (s : State) (n : Nat) : State :=
  let s1 := match s.currentSlot with | some c => s.retireSlot c | none => s
  let s2 := (s1.storeNat (s.weightSlot n + 4) 1 1).storeNat (s.weightSlot n + 8) 4 0
  (s2.ctlSet .memctl 0x428 4 (n + 2 ^ 8)).raiseBit .memctl 0x430 1

/-- WEIGHT_SWITCH: a write of WHCMD with GO. -/
def execWeightSwitch (s : State) : Host.Outcome State Fault Refusal :=
  commandStep s (fun s x =>
    let n := bitsOf x 0 4
    if bitsOf x 31 1 = 1 then
      let s1 := s.ctlSet .memctl 0x42C 4 n
      if s1.switchable n then s1.switchTo n else s1.raiseBit .memctl 0x430 2
    else s)

/-! ### The weight store (13 R295, R296) -/

/-- The bytes of a chunk. -/
def chunkSize : Nat := 64 * 2 ^ 20

/-- The fields of a manifest at a physical address. -/
def State.manifestLength (s : State) (a : Nat) : Nat := s.nat (a + 0x10) 8
def State.manifestChunks (s : State) (a : Nat) : Nat := s.nat (a + 0x18) 4
def State.manifestSeqno (s : State) (a : Nat) : Nat := s.nat (a + 8) 8

/-- The digests of a manifest. -/
def State.manifestDigests (s : State) (a : Nat) : List (BitVec 256) :=
  (List.range (s.manifestChunks a)).map (fun i => BitVec.ofNat 256 (s.nat (a + 0x20 + 32 * i) 32))

/-- What refuses a staged image: a CAUSE of WSSTAT, or a field for whose refusal no CAUSE is stated. -/
inductive ImageRefusal where
  | cause (c : Nat)
  | unstated
  deriving DecidableEq, Repr

/-- The bytes of a manifest that its signature covers, and the signature. -/
def State.manifestBytes (s : State) (a : Nat) : List Byte := memBytes s.mem a (0x20 + 32 * s.manifestChunks a)
def State.manifestSignature (s : State) (a : Nat) : List Byte := memBytes s.mem (a + 0x20 + 32 * s.manifestChunks a) 49856

/-- A byte string in the form whose digest is taken. -/
def digestOf (b : List Byte) : BitVec 256 :=
  Config.shake256 b.length ((b.mapIdx (fun i x => (i, x))).filter (fun c => decide (c.2 ≠ 0)))

/-- The check of a staged image: manifest fields, signature, sequence number.
DEDUCED: log 89. -/
def State.imageRefusal (s : State) (a : Nat) : Option ImageRefusal :=
  let n := s.manifestChunks a
  let len := s.manifestLength a
  if s.nat a 4 ≠ 0x4C574D46 ∨ s.nat (a + 4) 2 ≠ 1 ∨ s.nat (a + 6) 2 ≠ 0 ∨ s.nat (a + 0x1C) 4 ≠ 0 then some .unstated
  else if len = 0 ∨ 6000000000000 < len ∨ n ≠ (len + chunkSize - 1) / chunkSize ∨ 89407 < n then some (.cause 3)
  else if Config.manifestVerifies (s.manifestBytes a) (s.manifestSignature a) = false then
    some (.cause 1)
  else if s.manifestSeqno a < s.lastSeqno then some (.cause 4)
  else none

/-- WSSTAT with fields replaced: BUSY, STORE. -/
def State.setStore (s : State) (busy store : Nat) : State :=
  s.ctlSet .memctl 0x460 4 (setBits (setBits (s.ctlNat .memctl 0x460 4) 0 1 busy) 8 2 store)

/-- WSSTAT with ERR and CAUSE set. -/
def State.storeErr (s : State) (cause : Nat) : State :=
  s.ctlSet .memctl 0x460 4 (setBits (setBit (s.ctlNat .memctl 0x460 4) 2) 4 4 cause)

/-- PODBOOT with a field replaced. -/
def State.setPodboot (s : State) (lo n v : Nat) : State := s.ctlSet .memctl 0x440 4 (setBits (s.ctlNat .memctl 0x440 4) lo n v)

/-- WEIGHT_STORE_INSTALL: a write of WSCMD with GO. -/
def execWeightStoreInstall (s : State) : Host.Outcome State Fault Refusal :=
  commandStep s (fun s x =>
    if bitsOf x 63 1 = 1 ∧ s.install.isNone = true then
      let a := bitsOf x 8 44 * 256
      let s1 := s.ctlSet .memctl 0x458 8 a
      match s.imageRefusal a with
      | some (.cause c) => s1.storeErr c
      | some .unstated => { s1.storeErr (Config.freeNat s.fresh 0 % 16) with fresh := s.fresh + 1 }
      | none =>
        { (s1.setStore 1 1).setPodboot 3 1 0 with
          weights := none
          install := some { base := a, seqno := s.manifestSeqno a, length := s.manifestLength a, digests := s.manifestDigests a
                            signature := s.manifestSignature a, digest := digestOf (s.manifestBytes a) } }
    else s)

/-- The first byte of chunk data: the first 64 KiB boundary of the image after the signature. -/
def chunkBase (chunks : Nat) : Nat := (0x20 + 32 * chunks + 49856 + 65535) / 65536 * 65536

/-- The bytes other than zero of a span of a sparse byte string, by position in the span. -/
def spanCells (m : List Host.Cell) (a n : Nat) : List Host.Cell :=
  (m.filter (fun c => decide (a ≤ c.1) && decide (c.1 < a + n))).map (fun c => (c.1 - a, c.2))

/-- Whether every chunk of an image's bytes has the digest that the manifest gives. -/
def chunksMatch (len : Nat) (digests : List (BitVec 256)) (bytes : List Host.Cell) : Bool :=
  digests.zipIdx.all (fun d =>
    let n := min chunkSize (len - d.2 * chunkSize)
    decide (Config.shake256 n (spanCells bytes (d.2 * chunkSize) n) = d.1))

/-- WEIGHT_INSTALL_DONE: the chunks have been written and read again. -/
def execWeightInstallDone (s : State) : Host.Outcome State Fault Refusal :=
  let s1 := { s with input := .none }
  match s.install with
  | some i =>
    let bytes := spanCells s.mem (i.base + chunkBase i.digests.length) i.length
    let s2 := { s1 with install := none }
    if chunksMatch i.length i.digests bytes then
      .next { ((s2.setStore 0 2).raiseBit .memctl 0x460 1).setPodboot 3 1 1 with
        lastSeqno := i.seqno
        weights := some { seqno := i.seqno, length := i.length, digests := i.digests, signature := i.signature
                          digest := i.digest, bytes := bytes } }
    else .next ((s2.setStore 0 0).storeErr 2)
  | none => .next s1

/-! ### Rate points and caps (13 R291, R292, R294) -/

/-- HRATE_TARGET_WRITE of a channel. -/
def execHrateTargetWrite (s : State) : Host.Outcome State Fault Refusal :=
  let s1 := { s with input := .none }
  match s.input with
  | .two ch code =>
    let v := s.ctlNat .memctl (4 * ch) 4
    if ch < 256 ∧ code % 4 ≠ 3 ∧ bitsOf v 4 1 = 0 ∧ bitsOf v 0 2 ≠ code % 4 then
      .next (s1.ctlSet .memctl (4 * ch) 4 (setBit (setBits v 0 2 code) 4))
    else .next s1
  | _ => .next s1

/-- HRATE_SWITCH_DONE of a channel. -/
def execHrateSwitchDone (s : State) : Host.Outcome State Fault Refusal :=
  let s1 := { s with input := .none }
  match s.input with
  | .one ch =>
    let v := s.ctlNat .memctl (4 * ch) 4
    if ch < 256 ∧ bitsOf v 4 1 = 1 then .next (s1.ctlSet .memctl (4 * ch) 4 (setBits (setBits v 2 2 (bitsOf v 0 2)) 4 1 0)) else .next s1
  | _ => .next s1

/-- MUCAP_WRITE of a die. -/
def execMucapWrite (s : State) : Host.Outcome State Fault Refusal :=
  let s1 := { s with input := .none }
  match s.input with
  | .two d x =>
    let cap := bitsOf x 0 10
    if d < 2 ∧ 1 ≤ cap ∧ cap ≤ 512 then .next (s1.ctlSet .memctl (0x400 + 4 * d) 4 cap) else .next s1
  | _ => .next s1

/-! ### Power and measurement (13 R296, R304, R305) -/

/-- STATE of PODBOOT, whether this module leads, and this module's serial. -/
def State.bootState (s : State) : Nat := bitsOf (s.ctlNat .memctl 0x440 4) 0 2
def State.leads (s : State) : Bool := decide (bitsOf (s.ctlNat .memctl 0x440 4) 2 1 = 1)
def mySerial : Nat := Config.serial.toNat

/-- The module without power: the store, the last sequence number and the firmware image remain.
DEDUCED: log 93. -/
def State.unpowered (s : State) : State :=
  { State.reset with
    agenda := s.agenda, fresh := s.fresh, out := s.out, firmware := s.firmware, weights := s.weights, lastSeqno := s.lastSeqno }

/-- POWER_LOSS. -/
def execPowerLoss (s : State) : Host.Outcome State Fault Refusal := .next s.unpowered

/-- The 32 bytes of a digest, as a little-endian number. -/
def digestBytes (d : BitVec 256) : List Byte := leBytes 32 d.toNat

/-- One extension of the measurement log. -/
def State.extend (s : State) (index : Nat) (value : BitVec 256) : State :=
  { s with
    mlog := s.mlog ++ [(index, value)]
    m := digestOf (digestBytes s.m ++ leBytes 4 index ++ digestBytes value) }

/-- The firmware does not verify: index 6 takes a failure record, and the module is in recovery. -/
def State.recover (s : State) (cause : Nat) : State := (s.extend 6 (BitVec.ofNat 256 cause)).setPodboot 0 2 3

/-- The boot ROM measures and verifies the firmware image and starts it, or enters recovery.
DEDUCED: log 92. -/
def State.bootRom (s : State) : State :=
  match s.firmware with
  | none => s.recover 3
  | some b =>
    let s1 := s.extend 2 (digestOf b)
    if Config.firmwareSound b = false then s1.recover 2 else if Config.firmwareVerifies b = false then s1.recover 1 else s1

/-- What the firmware measures when it starts: the boot ROM's identity, the fuse and configuration state, and the manifest digest of the image in
the store.
DEDUCED: log 92. -/
def State.measure (s : State) : State :=
  let s1 := (s.extend 1 Config.romIdentity).extend 3 Config.fuseState
  match s1.weights with | some w => s1.extend 4 w.digest | none => s1

/-- POWER_ON: the boot ROM runs, and unless the module is then in recovery, the firmware. -/
def execPowerOn (s : State) : Host.Outcome State Fault Refusal :=
  let s1 := s.unpowered
  let s2 := if s1.weights.isSome then (s1.setStore 0 2).setPodboot 3 1 1 else s1
  let s3 := s2.bootRom
  .next (if s3.bootState = 3 then s3 else s3.measure)

/-- RECOVERY_IMAGE_ACCEPT: a module in recovery takes a new firmware image. -/
def execRecoveryImageAccept (s : State) : Host.Outcome State Fault Refusal :=
  let s1 := { s with input := .none }
  match s.input with
  | .bytes b => if bitsOf (s.ctlNat .memctl 0x440 4) 0 2 = 3 then .next { s1 with firmware := some b } else .next s1
  | _ => .next s1

/-- SPDM_MEASUREMENT_REQUEST: the module answers with the log and M, signed, over the port whose DOE mailbox the request came by, or over the
management port. -/
def execSpdmMeasurementRequest (s : State) : Host.Outcome State Fault Refusal :=
  let port : Option Nat := match s.input with | .one p => some p | _ => none
  .next { s with input := .none, out := s.out ++ [.spdmAnswer port s.mlog s.m (Config.sign s.mlog s.m)] }

/-! ### Pod boot (13 R297 to R300) -/

/-- A member in a list in ascending SERIAL. -/
def insertMember (m : Member) : List Member → List Member
  | [] => [m]
  | x :: t => if m.serial < x.serial then m :: x :: t else if m.serial = x.serial then m :: t else x :: insertMember m t

/-- The reachable modules, this one among them, in ascending SERIAL; a pod holds 256 (01 R14). -/
def State.reachables (s : State) (ms : List Member) : List Member :=
  let others : List Member := (ms.filter (fun m => decide (m.serial ≠ mySerial))).foldl (fun t m => insertMember m t) []
  insertMember { serial := mySerial, candidate := s.weights.isSome } (others.take 255)

/-- The chain under a leader: the leader first, then ascending SERIAL. -/
def chainOf (leader : Member) (ms : List Member) : List Member := leader :: ms.filter (fun m => decide (m.serial ≠ leader.serial))

/-- The members before and after a serial in the chain. -/
def Pod.after (p : Pod) (serial : Nat) : Option Nat :=
  (((p.chain.map (fun m => m.serial)).dropWhile (fun x => decide (x ≠ serial))).drop 1).head?
def Pod.before (p : Pod) (serial : Nat) : Option Nat :=
  ((p.chain.map (fun m => m.serial)).takeWhile (fun x => decide (x ≠ serial))).getLast?

/-- The chunks kept that the plan asks for. -/
def Pod.held (p : Pod) : List Nat := p.plan.filter (fun i => p.kept.any (fun c => decide (c.index = i)))

/-- CHUNKS and CHUNKREQ. -/
def State.countChunks (s : State) : State :=
  (s.ctlSet .memctl 0x450 4 s.pod.held.length).ctlSet .memctl 0x454 4 s.pod.plan.length

/-- The length of a chunk of an image, and its bytes other than zero. -/
def StoreImage.chunk (w : StoreImage) (i : Nat) : Nat × List Host.Cell :=
  let n := min chunkSize (w.length - i * chunkSize)
  (n, spanCells w.bytes (i * chunkSize) n)

/-- A chunk is kept, in frames that the firmware reserves for it (13 R297).
DESIGN CHOICE: log 90. -/
def State.keepChunk (s : State) (i : Nat) (d : BitVec 256) (len : Nat) (cells : List Host.Cell) : State :=
  let frame := 2 ^ 16 * Config.freeNat s.fresh i
  { s with
    fresh := s.fresh + 1
    base := s.tick
    mem := cells.foldl (fun t c => memSet t (frame + c.1) c.2) (s.mem.filter (fun c => !(decide (frame ≤ c.1) && decide (c.1 < frame + len))))
    pod := { s.pod with kept := s.pod.kept.filter (fun c => decide (c.index ≠ i)) ++ [{ index := i, digest := d, length := len, frame := frame }] } }

/-- What this module sends of a chunk: from its store as leader, and otherwise what it relays or keeps. -/
def State.chunkData (s : State) (i : Nat) : Nat × List Host.Cell :=
  match if s.leads then s.weights.map (fun w => w.chunk i) else none, Assoc.find i s.pod.passed, s.pod.kept.find? (fun c => decide (c.index = i)) with
  | some x, _, _ => x
  | none, some x, _ => x
  | none, none, some c => (c.length, spanCells s.mem c.frame c.length)
  | none, none, none => (0, [])

/-- A chunk as this module sends it to another. -/
def State.chunkOut (s : State) (serial i : Nat) : Output := .chunk serial i (s.chunkData i).1 (s.chunkData i).2

/-- The chunks held whose digest is that of a manifest (R298). -/
def keepMatching (manifest : List (Nat × BitVec 256)) (kept : List Chunk) : List Chunk :=
  kept.filter (fun c => manifest.any (fun d => decide (d.1 = c.index) && decide (d.2 = c.digest)))

/-- The leader's choice whether a member keeps a chunk: the distribution plan is its own.
DESIGN CHOICE: log 91. -/
def planFor (fresh chunks member : Nat) : List Nat := (List.range chunks).filter (fun i =>
  decide (Config.freeNat fresh (2 ^ 20 * member + i) % 2 = 1))

/-- What a member relays: the chunks that some member after it keeps. -/
def relayFor (chain : List Member) (plans : List (Nat × List Nat)) (serial : Nat) : List Nat :=
  (((chain.map (fun m => m.serial)).dropWhile (fun x => decide (x ≠ serial))).drop 1).flatMap (fun x => Assoc.get [] plans x) |>.eraseDups

/-- The plan messages of a leader to the other members of its chain. -/
def Pod.planMessages (p : Pod) : List Output :=
  (p.chain.filter (fun m => decide (m.serial ≠ mySerial))).map (fun m =>
    .plan m.serial (Assoc.get [] p.plans m.serial) (relayFor p.chain p.plans m.serial))

/-- This module leads a chain: it plans, keeps of its own share what it does not hold yet, from its store, and sends the plans. -/
def State.lead (s : State) (chain : List Member) : State :=
  let digests := match s.weights with | some w => w.digests | none => []
  let manifest := digests.zipIdx.map (fun d => (d.2, d.1))
  let plans := chain.foldl (fun t m => Assoc.put m.serial (planFor s.fresh digests.length m.serial) t) []
  let plan := Assoc.get [] plans mySerial
  let held := keepMatching manifest s.pod.kept
  let p : Pod := { s.pod with
    chain := chain, manifest := manifest, plan := plan, relay := relayFor chain plans mySerial, kept := held, passed := []
    mdigest := match s.weights with | some w => w.digest | none => s.pod.mdigest
    reports := [], plans := plans, heard := s.clock, sent := s.clock }
  let s1 := (({ s with pod := p, fresh := s.fresh + 1, out := s.out ++ p.planMessages }.setPodboot 0 2 1).setPodboot 2 1 1).ctlSet
    .memctl 0x448 8 mySerial
  let missing := manifest.filter (fun d => plan.contains d.1 && !held.any (fun c => decide (c.index = d.1)))
  (missing.foldl (fun s d => match s.weights with | some w => s.keepChunk d.1 d.2 (w.chunk d.1).1 (w.chunk d.1).2 | none => s) s1).countChunks

/-- This module follows a leader; what it keeps is settled when the leader's plan arrives. -/
def State.follow (s : State) (leader : Nat) (chain : List Member) : State :=
  ((({ s with pod := { s.pod with chain := chain, plan := [], relay := [], passed := [], reports := [], plans := [], heard := s.clock } }.setPodboot
    0 2 1).setPodboot 2 1 0).ctlSet .memctl 0x448 8 leader).countChunks

/-- An election among the reachable modules. -/
def State.elect (s : State) (ms : List Member) : State :=
  let all := s.reachables ms
  match all.find? (fun m => m.candidate) with
  | none => { s with pod := { s.pod with chain := all, plan := [], relay := [] } }.setPodboot 0 2 0
  | some l => if l.serial = mySerial then s.lead (chainOf l all) else s.follow l.serial (chainOf l all)

/-- Whether a packet of another leader puts this module under it: of two leaders the one with the lower SERIAL survives, and it takes over the
modules that followed the other (R299). -/
def State.yieldsTo (s : State) (leader : Nat) : Bool :=
  decide (leader ≠ mySerial) && decide (s.bootState ≠ 3) &&
  (if s.leads then decide (leader < mySerial) else decide (s.bootState = 0) || decide (leader < s.ctlNat .memctl 0x448 8))

/-- This module comes under a surviving leader, with what is known of its chain. -/
def State.joinLeader (s : State) (leader : Nat) (ms : List Member) : State :=
  let other : Member := { serial := leader, candidate := true }
  s.follow leader (chainOf other (s.reachables (other :: ms ++ s.pod.chain)))

/-- A module under a leader takes its plan: it keeps what matches the manifest and reports what it holds (R297, R298). The plan of a leader that
survives its own comes first under that one. -/
def State.takePlan (s0 : State) (leader : Nat) (manifest : List (Nat × BitVec 256)) (digest : BitVec 256) (keep relay : List Nat) : State :=
  let s := if s0.yieldsTo leader then s0.joinLeader leader [] else s0
  if s.leads || decide (s.bootState ≠ 1) || decide (s.ctlNat .memctl 0x448 8 ≠ leader) || !Config.leaderVerifies manifest then s
  else
    let p := { s.pod with
      manifest := manifest, mdigest := digest, plan := keep, relay := relay, kept := keepMatching manifest s.pod.kept
      heard := if s.pod.before mySerial = some leader then s.clock else s.pod.heard }
    State.countChunks { s with pod := p, out := s.out ++ [Output.chunkReport leader (p.kept.map (fun c => c.index))] }

/-- POD_ELECTION among reachable modules; or the elected leader's plan reaches this module. -/
def execPodElection (s : State) : Host.Outcome State Fault Refusal :=
  let s1 := { s with input := .none }
  if s.bootState = 3 then .next s1
  else
    match s.input with
    | .members ms => .next (s1.elect ms)
    | .plan leader manifest digest keep relay => .next (s1.takePlan leader manifest digest keep relay)
    | _ => .next s1

/-- A leader sends a member the chunks of its plan that it does not hold, down the chain. -/
def State.sendMissing (s : State) (serial : Nat) (held : List Nat) : State :=
  let missing := (Assoc.get [] s.pod.plans serial).filter (fun i => !held.contains i)
  match s.pod.after mySerial with
  | some next => { s with out := s.out ++ missing.map (s.chunkOut next), pod := { s.pod with sent := if missing = [] then s.pod.sent else s.clock } }
  | none => s

/-- HELD_CHUNK_REPORT of a member. -/
def execHeldChunkReport (s : State) : Host.Outcome State Fault Refusal :=
  let s1 := { s with input := .none }
  match s.input with
  | .held serial chunks =>
    if s.leads && decide (s.bootState = 1) && s.pod.chain.any (fun m => decide (m.serial = serial)) then
      let first := (Assoc.find serial s.pod.reports).isNone
      let s2 := { s1 with pod := { s1.pod with reports := Assoc.put serial chunks s1.pod.reports } }
      .next (if first then s2.sendMissing serial chunks else s2)
    else .next s1
  | _ => .next s1

/-- A chunk that has come whole and matches its digest: kept and reported if the plan asks for it and it is not held, and forwarded if a later
member keeps it (R297, R298). -/
def State.takeChunk (s : State) (i : Nat) (d : BitVec 256) (len : Nat) (cells : List Host.Cell) : State :=
  let relays := s.pod.relay.contains i
  let s1 := if s.pod.plan.contains i && !s.pod.kept.any (fun c => decide (c.index = i)) then
      let t := s.keepChunk i d len cells
      { t with out := t.out ++ [Output.chunkReport (s.ctlNat .memctl 0x448 8) (t.pod.kept.map (fun c => c.index))] }
    else if relays then { s with pod := { s.pod with passed := Assoc.put i (len, cells) s.pod.passed } }
    else s
  let s2 := match s.pod.after mySerial with
    | some n => if relays then { s1 with out := s1.out ++ [Output.chunk n i len cells] } else s1
    | none => s1
  s2.countChunks

/-- CHUNK_RECEIVED: one that does not match its digest is requested again. -/
def execChunkReceived (s : State) : Host.Outcome State Fault Refusal :=
  let s1 := { s with input := .none }
  match s.input with
  | .chunk index length cells =>
    if s.leads || decide (s.bootState ≠ 1) then .next s1
    else
      match Assoc.find index s.pod.manifest with
      | none => .next s1
      | some d =>
        let p := { s.pod with heard := s.clock }
        if Config.shake256 length cells = d then .next (State.takeChunk { s1 with pod := p } index d length cells)
        else
          match p.before mySerial with
          | some b => .next { s1 with pod := p, out := s1.out ++ [.chunkRequest b index] }
          | none => .next { s1 with pod := p }
  | _ => .next s1

/-- CHUNK_REREQUEST: this module's successor asks for a chunk again. -/
def execChunkRerequest (s : State) : Host.Outcome State Fault Refusal :=
  let s1 := { s with input := .none }
  match s.input with
  | .two serial index =>
    if s.pod.after mySerial = some serial ∧ (s.leads = true ∨ s.pod.relay.contains index = true) then
      .next { s1 with out := s1.out ++ [s.chunkOut serial index], pod := { s1.pod with sent := if s.leads then s.clock else s.pod.sent } }
    else .next s1
  | _ => .next s1

/-- Whether every member of the leader's chain holds its chunks. -/
def State.distributed (s : State) : Bool :=
  decide (s.pod.held.length = s.pod.plan.length) &&
  s.pod.chain.all (fun m => decide (m.serial = mySerial) ||
    (match Assoc.find m.serial s.pod.reports with
     | some h => (Assoc.get [] s.pod.plans m.serial).all (fun i => h.contains i)
     | none => false))

/-- This module has chip number `c` of `n`: CHIPID, PODMASK, STATE; the firmware measures the leader's image (R304).
DEDUCED: log 99. -/
def State.takeNumber (s : State) (c n : Nat) : State :=
  (((s.ctlSet .fabric 0 4 (c + 2 ^ 8)).ctlSet .fabric 0x20 32 (2 ^ n - 1)).setPodboot 0 2 2).extend 5 s.pod.mdigest

/-- CHIP_ASSIGNMENT: the leader numbers the members in ascending SERIAL; or this module learns its number and how many there are. -/
def execChipAssignment (s : State) : Host.Outcome State Fault Refusal :=
  let s1 := { s with input := .none }
  if s.bootState ≠ 1 then .next s1
  else
    match s.input with
    | .two c n => if s.leads then .next s1 else .next (s1.takeNumber (c % 256) (min n 256))
    | _ =>
      if s.leads && s.distributed then
        let order : List Nat := (s.pod.chain.foldl (fun t m => insertMember m t) []).map (fun m => m.serial)
        let others : List (Nat × Nat) := order.zipIdx.filter (fun x => decide (x.1 ≠ mySerial))
        let s2 := { s1 with out := s1.out ++ others.map (fun x : Nat × Nat => Output.chipNumber x.1 x.2) }
        .next (s2.takeNumber (order.idxOf mySerial) order.length)
      else .next s1

/-- LEADER_CONTACT: a packet of another leader. The one with the higher SERIAL abdicates; it and the modules that followed it join the other's
chain (R299). -/
def execLeaderContact (s : State) : Host.Outcome State Fault Refusal :=
  let s1 := { s with input := .none }
  match s.input with
  | .leader serial ms =>
    if s.yieldsTo serial then .next (s1.joinLeader serial ms)
    else if s.leads && decide (serial ≠ mySerial) && decide (s.bootState ≠ 3) then
      .next (s1.lead (chainOf { serial := mySerial, candidate := true }
        (s.reachables ({ serial := serial, candidate := true } :: ms ++ s.pod.chain))))
    else .next s1
  | _ => .next s1

/-- KEEPALIVE_SEND of a leader. -/
def execKeepaliveSend (s : State) : Host.Outcome State Fault Refusal :=
  let s1 := { s with input := .none }
  if s.leads then
    match s.pod.after mySerial with
    | some n => .next { s1 with out := s1.out ++ [.keepalive n], pod := { s1.pod with sent := s.clock } }
    | none => .next s1
  else .next s1

/-- KEEPALIVE_RECEIVED of a member, which relays it. -/
def execKeepaliveReceived (s : State) : Host.Outcome State Fault Refusal :=
  let s1 := { s with input := .none }
  if s.leads || s.pod.chain.isEmpty then .next s1
  else
    let fwd := match s.pod.after mySerial with | some n => [Output.keepalive n] | none => []
    .next { s1 with out := s1.out ++ fwd, pod := { s1.pod with heard := s.clock } }

/-- Whether 2^20 link cycles have passed since the predecessor was heard: 35 link cycles take as long as 16 cycles of local time.
DEDUCED: log 94. -/
def State.upstreamQuiet (s : State) : Bool :=
  !s.leads && !s.pod.chain.isEmpty && decide (s.bootState ≠ 3) && decide (16 * 2 ^ 20 ≤ 35 * (s.clock - s.pod.heard))

/-- UPSTREAM_SILENT: a new election among the modules that this one can reach.
DEDUCED: log 95. -/
def execUpstreamSilent (s : State) : Host.Outcome State Fault Refusal :=
  let s1 := { s with input := .none }
  match s.input with
  | .members ms => if s.upstreamQuiet then .next (s1.elect ms) else .next s1
  | _ => .next s1

/-! ### Soft errors (13 R306) -/

/-- A saturating count of soft errors rises. -/
def State.countError (s : State) (off : Nat) : State := s.ctlSet .memctl off 4 (min (2 ^ 32 - 1) (s.ctlNat .memctl off 4 + 1))

/-- A 64-byte sector is poisoned. -/
def State.poisonSector (s : State) (flat : Nat) : State := { s with poison := Assoc.set false s.poison (flat / 64) true }

/-- A 128-byte line of a context image is poisoned. -/
def Group.poisonLine (g : Group) (off : Nat) : Group :=
  { g with imgPoison := Assoc.set false g.imgPoison (off / 128) true }

/-- A 64-byte sector of the code in an overlay slot is poisoned. -/
def State.poisonCode (s : State) (n k : Nat) : State := { s with slots := Assoc.modify n (fun t => { t with poison := k :: t.poison }) s.slots }

/-- CORRECTED_ERROR of a die. -/
def execCorrectedError (s : State) : Host.Outcome State Fault Refusal :=
  let s1 := { s with input := .none }
  match s.input with
  | .one d => if d < 2 then .next (s1.countError (0x410 + 8 * d)) else .next s1
  | _ => .next s1

/-- UNCORRECTABLE_ERROR in memory or a cache, in a register cache or context image, or in an instruction store; or poison that a CXL device reports on a read, which
is no error of the module (11 R239). -/
def execUncorrectableError (s : State) : Host.Outcome State Fault Refusal :=
  let s1 := { s with input := .none }
  match s.input with
  | .sector d flat => if d < 2 then .next ((s1.countError (0x414 + 8 * d)).poisonSector flat) else .next s1
  | .one flat => .next (if inCxl flat then s1.poisonSector flat else s1)
  | .imageLine d key off =>
    if d < 2 then .next ((s1.countError (0x414 + 8 * d)).mapGroup key (fun g => g.poisonLine off)) else .next s1
  | .storeSector d n k => if d < 2 then .next ((s1.countError (0x414 + 8 * d)).poisonCode n k) else .next s1
  | _ => .next s1

/-- SCRUB_PASS: what the pass finds wrong is corrected, or poisoned, and counted on the die whose memory it is. -/
def execScrubPass (s : State) : Host.Outcome State Fault Refusal :=
  let s1 := { s with input := .none }
  match s.input with
  | .scrub corrected bad =>
    let s2 := corrected.foldl (fun s a => s.countError (0x410 + 8 * homeDie a)) s1
    .next (bad.foldl (fun s a => (s.countError (0x414 + 8 * homeDie a)).poisonSector a) s2)
  | _ => .next s1

/-! ### Spares (13 R307, R308) -/

/-- The spares of a die. -/
def State.sparesOf (s : State) (die : Nat) : Spares := Assoc.get {} s.spares die

/-- The state with the spares of a die stored. -/
def State.setSpares (s : State) (die : Nat) (x : Spares) : State := { s with spares := Assoc.set {} s.spares die x }

/-- The posted stores of a group to other chips fail. -/
def State.failRemote (s : State) (id : Nat) (o : MemOp) : State :=
  ((o.accs ++ o.sent).filter (fun a => a.2.chip.isSome && a.2.kind.isStore)).foldl (fun s a =>
    let s1 := match s.flightOf id a.1 with | some r => s.answered r | none => s
    let s2 := s1.freeEntryOf id a.1
    match Assoc.find id s2.ops with
    | some o1 => (s2.accessLost id o1 a.1 a.2).settleFencer o.group
    | none => s2) s

/-- The doorbells of a group fail. -/
def State.failBell (s : State) (id : Nat) (b : Bell) : State :=
  { s with bells := Assoc.del id s.bells }.mapGroup b.group (fun g => (g.ctrDown .io).addFailure .io { kind := 0x0F } 0)

/-- Every engine operation in flight of a group on a failed core fails with KIND 0x0F.
DEDUCED: log 97. -/
def State.failEngines (s : State) (key : Nat) : State :=
  let s1 : State := { s with copies := s.copies.map (fun c : Nat × CopyOp =>
    if c.2.group = key then (c.1, { c.2 with failed := some (c.2.failed.getD { kind := 0x0F }) }) else c) }
  let s2 := (s1.ops.filter (fun o => decide (o.2.group = key))).foldl (fun s o => s.failRemote o.1 o.2) s1
  let s3 := (s2.bells.filter (fun b => decide (b.2.group = key))).foldl (fun s b => s.failBell b.1 b.2) s2
  match Assoc.find key s3.groups with
  | some g =>
    (match g.matrixOp with
     | some o => s3.matrixFail key g o g.nextTile { kind := 0x0F }
     | none => s3)
  | none => s3

/-- The keys of the groups on a core. -/
def State.groupsOn (s : State) (core : Nat) : List Nat := (s.groups.filter (fun x => decide (x.2.core = core))).map (fun x => x.1)

/-- A core without a spare is retired: its groups are lost. -/
def State.retireCore (s : State) (core : Nat) : State :=
  let s1 := { s with retiredCores := Assoc.set false s.retiredCores core true }
  (s1.groupsOn core).foldl (fun s key =>
    let s1 := s.failEngines key
    match Assoc.find key s1.groups with
    | some g => if g.stop = .lost then s1 else s1.lose key g
    | none => s1) s1

/-- CORE_FAILED: a spare of the die takes the core's number while it is drained, or the core is retired.
DEDUCED: log 96. -/
def execCoreFailed (s : State) : Host.Outcome State Fault Refusal :=
  let s1 := { s with input := .none }
  match s.input with
  | .one core =>
    if 256 ≤ core ∨ Assoc.get false s.draining core = true ∨ Assoc.get false s.retiredCores core = true then .next s1
    else
      let sp := s.sparesOf (dieOf core)
      if sp.used < 4 then
        .next { s1.setSpares (dieOf core) { sp with used := sp.used + 1 } with draining := Assoc.set false s1.draining core true }
      else .next (s1.retireCore core)
  | _ => .next s1

/-- A geometric instruction of a group of a failed core runs again on the spare. -/
def Group.restartGeo (g : Group) : Group :=
  match g.geoOp with | some o => if g.geoStoppable o then g.geoStop o else g | none => g

/-- Whether a memory operation can be run again exactly as it was: no access of it has been made, and the group has issued nothing since. -/
def Group.undoable (g : Group) (id : Nat) (o : MemOp) : Bool :=
  decide (g.issues = o.issue + 1) && decide (o.accs.length = o.size) && decide (g.stop = .running) &&
  (decide (g.wait = .none) || decide (g.wait = .remote id)) && decide ((g.live o.slot).mask = o.owner) &&
  decide ((g.live o.slot).pc = (pcOfLow o.pcword).next)

/-- A group exactly before a memory operation that had not begun. -/
def Group.undo (g : Group) (id : Nat) (o : MemOp) : Group :=
  let g1 := if g.wait = .remote id then g.unwait else g
  { (o.dest.regs.foldl Group.free g1).jump o.slot (pcOfLow o.pcword) with issues := o.issue }

/-- A group restarts on a spare exactly before its oldest instruction that had not completed (R307): its memory operations that have not begun,
and that nothing completed follows, run again, the latest first taken back; what a home slice has accepted completes there.
DEDUCED: log 97. -/
def State.restartOps : Nat → State → Nat → State
  | 0, s, _ => s
  | fuel + 1, s, key =>
    match Assoc.find key s.groups with
    | some g =>
      (match s.ops.find? (fun x => decide (x.2.group = key) && g.undoable x.1 x.2) with
       | some (id, o) => State.restartOps fuel ({ s with ops := Assoc.del id s.ops }.setGroup key (s.readyNow (g.undo id o))) key
       | none => s)
    | none => s

/-- A group of a failed core restarts on the spare. -/
def State.restartGroup (s : State) (key : Nat) : State :=
  State.restartOps s.ops.length ((s.failEngines key).mapGroup key Group.restartGeo) key

/-- SPARE_CORE_DRAIN_DONE, with what could not be read: it is poisoned at its destination, engine operations in flight fail, and the
groups restart on the spare.
DESIGN CHOICE: log 107. -/
def execSpareCoreDrainDone (s : State) : Host.Outcome State Fault Refusal :=
  let s1 := { s with input := .none }
  match s.input with
  | .failure core sectors lines code =>
    if Assoc.get false s.draining core = true then
      let s2 := sectors.foldl State.poisonSector s1
      let s3 := code.foldl (fun s x => s.poisonCode x.1 x.2) (lines.foldl (fun s x => s.mapGroup x.1 (fun g => g.poisonLine x.2)) s2)
      let s4 := (s3.groupsOn core).foldl State.restartGroup s3
      .next { s4 with draining := Assoc.set false s4.draining core false, tlb := s4.tlb.filter (fun t => decide (t.core ≠ core)) }
    else .next s1
  | _ => .next s1

/-- L2_SLICE_FAILED: the spare slice of the die takes over, or, for a second failure, the slice gives no further service. -/
def execL2SliceFailed (s : State) : Host.Outcome State Fault Refusal :=
  let s1 := { s with input := .none }
  match s.input with
  | .two die k =>
    let sp := s.sparesOf die
    if 2 ≤ die ∨ 47 ≤ k ∨ sp.deadSlices.contains k = true then .next s1
    else if sp.slice.isNone then .next (s1.setSpares die { sp with slice := some k, takeover := true })
    else
      .next ((s1.setSpares die { sp with
        deadSlices := k :: sp.deadSlices, takeover := sp.takeover && decide (sp.slice ≠ some k) }).configError 0)
  | _ => .next s1

/-- Every MCAS that holds a lock at a slice and has not compared restarts at its translations (08 R186, R188; 13 R308). -/
def State.restartAt (s : State) (die k : Nat) : State :=
  { s with locks := s.locks.map (fun l : Nat × Lock =>
      match l.2.op with
      | .mcas _ _ es =>
        if es.any (fun e => decide (e.1 < 2 ^ 52) && decide (homeDie e.1 = die) && decide (homeSlice e.1 = k)) then (l.1, { l.2 with restart := true }) else l
      | _ => l) }

/-- L2_SPARE_TAKEOVER_DONE, with the sectors that could not be read: they are poisoned, and what waited for the slice is served. -/
def execL2SpareTakeoverDone (s : State) : Host.Outcome State Fault Refusal :=
  let s1 := { s with input := .none }
  match s.input with
  | .failure die sectors _ _ =>
    let sp := s.sparesOf die
    if sp.takeover then
      let s2 := sectors.foldl State.poisonSector (s1.setSpares die { sp with takeover := false })
      .next (match sp.slice with | some k => s2.restartAt die k | none => s2).serveWaiting
    else .next s1
  | _ => .next s1

end Sys2Proof.Machine
end

