-- ==== Sys2Proof/Machine/Hart.lean ====
section
/-! DEFINITION. What harts do to the module (11 R256, R257; 04 R77, R90 to R92; 03 R52, R63; 10 R213; 11 R241; 12 R266; 13 R290): accesses to
module memory and to context images, and control registers. -/

namespace Sys2Proof.Machine

/-! ### Key masks of harts (11 R256, R257) -/

/-- The key mask CSRs of a hart. -/
def State.hartKeys (s : State) (hart : Nat) : HartKeys := Assoc.get {} s.harts hart

/-- The effective key mask of a hart in a mode. -/
def HartKeys.effective (k : HartKeys) : HartMode → BitVec 16
  | .m => 0xFFFF
  | .hs => k.mkeys ||| 0x8000
  | .u => k.mkeys
  | .vs => k.mkeys &&& k.mgkeys &&& 0x7FFD
  | .vu => k.mkeys &&& k.mgkeys &&& 0x7FFD

/-- Whether a mode is M or S. -/
def HartMode.system : HartMode → Bool
  | .m => true
  | .hs => true
  | _ => false

/-- Whether a page of a key refuses a hart: the weight domain is open to M mode alone, the context domain to M and S mode (07 R159).
DEDUCED: log 104. -/
def hartRefused (mode : HartMode) (mask : BitVec 16) (key : Nat) : Bool :=
  match mode with
  | .m => false
  | _ => if key = 1 then true else if key = 15 then !mode.system else !mask.getLsbD key

/-! ### Context images (04 R90 to R92) -/

/-- The 22 bits of a program counter in an image: overlay low. -/
def Pc.image (p : Pc) : Nat := p.ovl.toNat + 2 ^ 8 * p.off.toNat
def pcOfImage (x : Nat) : Pc := ⟨BitVec.ofNat 8 x, BitVec.ofNat 14 (x / 2 ^ 8), false⟩

/-- The 128 bits of a live slot or divergence-stack entry. -/
def Entry.image (e : Entry) : Nat :=
  e.mask.toNat + 2 ^ 32 * e.pc.image + 2 ^ 54 * e.kind.toNat + 2 ^ 56 * e.link.toNat + 2 ^ 63 * e.rsv63.toNat +
  2 ^ 64 * e.hinge.image + 2 ^ 86 * e.rsv86.toNat + 2 ^ 96 * e.arrived.toNat

/-- An entry as written: its reserved bits stay zero (00 R6). -/
def entryOfImage (x : Nat) : Entry :=
  { mask := w32 x, pc := pcOfImage (bitsOf x 32 22), kind := BitVec.ofNat 2 (x / 2 ^ 54), link := BitVec.ofNat 7 (x / 2 ^ 56)
    rsv63 := 0, hinge := pcOfImage (bitsOf x 64 22), rsv86 := 0, arrived := w32 (x / 2 ^ 96) }

/-- One field of the image that is not part of an array: offset, size, value, and the group with a value stored. -/
structure ImageField where
  off : Nat
  size : Nat
  get : Group → Nat
  set : Group → Nat → Group

/-- The scalar fields of the state block (04 R91), first half; a write leaves reserved bits zero (00 R6). -/
def imageFields1 : List ImageField :=
  [ ⟨0x00, 16, fun g => g.live0.image, fun g x => { g with live0 := entryOfImage x }⟩,
    ⟨0x10, 16, fun g => g.live1.image, fun g x => { g with live1 := entryOfImage x }⟩,
    ⟨0x20, 8, fun g => g.code.toNat, fun g x => { g with code := BitVec.ofNat 64 x }⟩,
    ⟨0x28, 2, fun g => g.lbase, fun g x => { g with lbase := x % 2 ^ 16 }⟩,
    ⟨0x2A, 2, fun g => g.reslo, fun g x => { g with reslo := x % 2 ^ 16 }⟩,
    ⟨0x2C, 1, fun g => g.wdepth, fun g x => { g with wdepth := x % 2 ^ 8 }⟩,
    ⟨0x2D, 1, fun g => g.sptr, fun g x => { g with sptr := x % 2 ^ 8 }⟩,
    ⟨0x2E, 1, fun g => g.mode.toNat, fun g x => { g with mode := BitVec.ofNat 8 (x % 16) }⟩,
    ⟨0x2F, 1, fun g => g.fexc.toNat, fun g x => { g with fexc := BitVec.ofNat 8 (x % 32) }⟩,
    ⟨0x30, 2, fun g => g.ctrCopy.toNat, fun g x => { g with ctrCopy := BitVec.ofNat 16 x }⟩,
    ⟨0x32, 2, fun g => g.ctrMatrix.toNat, fun g x => { g with ctrMatrix := BitVec.ofNat 16 x }⟩,
    ⟨0x34, 2, fun g => g.ctrRemote.toNat, fun g x => { g with ctrRemote := BitVec.ofNat 16 x }⟩,
    ⟨0x36, 2, fun g => g.ctrIo.toNat, fun g x => { g with ctrIo := BitVec.ofNat 16 x }⟩,
    ⟨0x38, 2, fun g => g.mtmask.toNat, fun g x => { g with mtmask := BitVec.ofNat 16 x }⟩,
    ⟨0x3A, 1, fun g => g.qthr.toNat, fun g x => { g with qthr := BitVec.ofNat 8 (x % 64) }⟩,
    ⟨0x3B, 1, fun g => g.waitkind.toNat, fun g x => { g with waitkind := BitVec.ofNat 8 x }⟩,
    ⟨0x3C, 4, fun g => g.geodone.toNat, fun g x => { g with geodone := w32 x }⟩,
    ⟨0x40, 8, fun g => g.geostg.toNat, fun g x => { g with geostg := BitVec.ofNat 64 x }⟩,
    ⟨0x48, 4, fun g => g.geocnt.toNat, fun g x => { g with geocnt := w32 x }⟩,
    ⟨0x4C, 4, fun g => g.fnan.toNat, fun g x => { g with fnan := w32 (x % 2 ^ 27 + bitsOf x 31 1 * 2 ^ 31) }⟩ ]

/-- The scalar fields of the state block, second half. -/
def imageFields2 : List ImageField :=
  [ ⟨0x50, 4, fun g => g.bphase.toNat, fun g x => { g with bphase := w32 x }⟩,
    ⟨0x54, 4, fun g => g.wgen.toNat, fun g x => { g with wgen := w32 x }⟩,
    ⟨0x58, 2, fun g => g.keymask.toNat, fun g x => { g with keymask := BitVec.ofNat 16 x }⟩,
    ⟨0x60, 8, fun g => g.ztag.toNat, fun g x => { g with ztag := BitVec.ofNat 64 (Nat.land x 0x1F1F1F1F1F1F1F1F) }⟩,
    ⟨0x68, 8, fun g => g.waitaddr.toNat, fun g x => { g with waitaddr := BitVec.ofNat 64 x }⟩,
    ⟨0x70, 4, fun g => g.tickets.toNat, fun g x => { g with tickets := w32 x }⟩,
    ⟨0x74, 4, fun g => g.launchid.toNat, fun g _ => g⟩,
    ⟨0x78, 2, fun g => g.unitix.toNat, fun g _ => g⟩,
    ⟨0x7A, 2, fun g => g.cluix.toNat, fun g _ => g⟩,
    ⟨0x7C, 1, fun g => g.groupix.toNat, fun g _ => g⟩,
    ⟨0x7D, 1, fun g => g.role.code, fun g _ => g⟩,
    ⟨0x7E, 2, fun _ => 0, fun g _ => g⟩,
    ⟨0x80, 4, fun g => g.frec.faultword.toNat, fun g x => { g with frec := { g.frec with faultword := w32 (x % 2 ^ 24) } }⟩,
    ⟨0x84, 4, fun g => g.frec.pcword.toNat, fun g x => { g with frec := { g.frec with pcword := w32 (x % 2 ^ 22) } }⟩,
    ⟨0x88, 8, fun g => g.frec.faddr.toNat, fun g x => { g with frec := { g.frec with faddr := BitVec.ofNat 64 (x % 2 ^ 56) } }⟩,
    ⟨0x90, 4, fun g => g.frec.lanes.toNat, fun g x => { g with frec := { g.frec with lanes := w32 x } }⟩,
    ⟨0x94, 1, fun g => g.frec.entry.toNat, fun g x => { g with frec := { g.frec with entry := BitVec.ofNat 8 x } }⟩,
    ⟨0x95, 1, fun g => g.frec.level.toNat, fun g x => { g with frec := { g.frec with level := BitVec.ofNat 8 (x % 8) } }⟩,
    ⟨0x96, 2, fun g => g.frec.seq.toNat, fun g x => { g with frec := { g.frec with seq := BitVec.ofNat 16 x } }⟩,
    ⟨0x98, 8, fun g => g.frec.info.toNat, fun g x => { g with frec := { g.frec with info := BitVec.ofNat 64 x } }⟩,
    ⟨0xA0, 8, fun g => g.frec.ppoisv.toNat, fun g x => { g with frec := { g.frec with ppoisv := BitVec.ofNat 64 (x % 2 ^ 48) } }⟩,
    ⟨0xA8, 4, fun g => g.frec.ppoisk.toNat, fun g x => { g with frec := { g.frec with ppoisk := w32 x } }⟩ ]

/-- The word of the image that holds a byte outside the state block's scalars and the reserved areas. -/
inductive ImageCell where
  | k (n : Nat)
  | p (n : Nat)
  | q
  | dstack (n : Nat)
  | wstack (n : Nat)
  | tag (n : Nat)
  | line (n l : Nat)
  | tile (key : Nat)
  | hist (n : Nat)
  deriving DecidableEq, Repr

/-- The cell of the image at an offset, and the byte's place in it (04 R87 to R90). -/
def imageCell (off : Nat) : Option (ImageCell × Nat) :=
  if 0x100 ≤ off ∧ off < 0x180 then some (.k ((off - 0x100) / 4), off % 4)
  else if 0x180 ≤ off ∧ off < 0x19C then some (.p ((off - 0x180) / 4), off % 4)
  else if 0x19C ≤ off ∧ off < 0x1A0 then some (.q, off % 4)
  else if 0x200 ≤ off ∧ off < 0x600 then some (.dstack ((off - 0x200) / 16), off % 16)
  else if 0x600 ≤ off ∧ off < 0xE00 then some (.wstack ((off - 0x600) / 8), off % 8)
  else if 0x1000 ≤ off ∧ off < 0x4000 then some (.tag (off - 0x1000), 0)
  else if 0x4000 ≤ off ∧ off < 0xC000 then some (.line ((off - 0x4000) / 128) (off % 128 / 4), off % 4)
  else if 0xC000 ≤ off ∧ off < 0x2C000 then some (.tile ((off - 0xC000) / 4), off % 4)
  else if 0x2C000 ≤ off ∧ off < 0x30000 then some (.hist (off - 0x2C000), 0)
  else none

/-- The value of a cell, as a number. -/
def ImageCell.get (g : Group) : ImageCell → Nat
  | .k n => (g.kreg n).toNat
  | .p n => (g.p.toList.getD n 0).toNat
  | .q => g.q.toNat
  | .dstack n => (Assoc.get {} g.dstack n : Entry).image
  | .wstack n => (Assoc.get (0 : BitVec 64) g.wstack n).toNat
  | .tag n => (g.tagByte n).toNat
  | .line n l => (lane (g.line n) l).toNat
  | .tile key => (Assoc.get (0 : Word) g.tiles key).toNat
  | .hist n => (Assoc.get (0 : Byte) g.qhist n).toNat

/-- The group with a cell stored; reserved bits stay zero (00 R6), those of a history byte too.
DEDUCED: log 152. -/
def ImageCell.put (g : Group) (x : Nat) : ImageCell → Group
  | .k n => g.setK n (w32 x)
  | .p n => g.setP n (w32 x)
  | .q => { g with q := w32 (x % 8) }
  | .dstack n => { g with dstack := Assoc.set {} g.dstack n (entryOfImage x) }
  | .wstack n => { g with wstack := Assoc.set 0 g.wstack n (BitVec.ofNat 64 (x % 2 ^ 27)) }
  | .tag n => { g with ltags := Assoc.set 0 g.ltags n (BitVec.ofNat 8 (x % 32)) }
  | .line n l => g.setLine n (Lanes.ofFn (fun i => if i.val = l then w32 x else lane (g.line n) i.val))
  | .tile key => { g with tiles := Assoc.set 0 g.tiles key (w32 x) }
  | .hist n => { g with qhist := Assoc.set 0 g.qhist n (BitVec.ofNat 8 (x % 64)) }

/-- The scalar field that holds an image byte. -/
def imageField (off : Nat) : Option ImageField :=
  (imageFields1 ++ imageFields2).find? (fun f => decide (f.off ≤ off) && decide (off < f.off + f.size))

/-- One byte of a group's context image. -/
def Group.imageByte (g : Group) (off : Nat) : Byte :=
  match imageField off with
  | some f => BitVec.ofNat 8 (bitsOf (f.get g) (8 * (off - f.off)) 8)
  | none =>
    match imageCell off with
    | some (c, i) => BitVec.ofNat 8 (bitsOf (c.get g) (8 * i) 8)
    | none => Assoc.get 0 g.rsv off

/-- A group with one byte of its context image stored; read-only fields keep their values. -/
def Group.putImageByte (g : Group) (off : Nat) (b : Byte) : Group :=
  match imageField off with
  | some f => f.set g (setBits (f.get g) (8 * (off - f.off)) 8 b.toNat)
  | none =>
    match imageCell off with
    | some (c, i) => c.put g (setBits (c.get g) (8 * i) 8 b.toNat)
    | none => { g with rsv := Assoc.set 0 g.rsv off b }

/-- The cached copy of the line that holds an image byte is invalid (04 R77). -/
def Group.dropLine (g : Group) (off : Nat) : Group :=
  match imageCell off with
  | some (.k _, _) => { g with uAbsent := true }
  | some (.p _, _) => { g with pAbsent := true }
  | some (.q, _) => { g with pAbsent := true }
  | some (.line n _, _) => { g with absent := g.absent ||| BitVec.ofNat 256 (2 ^ n) }
  | some (.tile key, _) => if g.role = .matrix then { g with zAbsent := g.zAbsent ||| BitVec.ofNat 8 (2 ^ (key / 4096)) } else g
  | _ => g

/-- A write of bytes to a group's context image. A line that the write covers whole is no longer poisoned. -/
def Group.writeImage (g : Group) (off : Nat) (data : List Byte) : Group :=
  let g1 := data.zipIdx.foldl (fun g x => (g.putImageByte (off + x.2) x.1).dropLine (off + x.2)) g
  let first := (off + 127) / 128
  let last := (off + data.length) / 128
  if first < last then g1.cleanImage (128 * first) (128 * (last - first)) else g1

/-- Bytes that an agent reads: each free where its sector is poisoned.
DEDUCED: log 103. -/
def readable (fresh : Nat) (bytes : List (Byte × Bool)) : List Byte := bytes.mapIdx (fun i x => if x.2 then Config.freeByte fresh i else x.1)

/-- An answer to a hart's load. -/
def State.hartLoad (s : State) (bytes : List (Byte × Bool)) : State :=
  { s with out := s.out ++ [.hartData (readable s.fresh bytes)], fresh := s.fresh + 1 }

/-- The access-fault exception of a hart. -/
def State.hartFault (s : State) (write : Bool) : State := { s with out := s.out ++ [.hartFault write] }

/-- A hart's access to the context image in a frame of a core: in M or S mode, and a write only while the group is stopped for a trap
or fault.
DEDUCED: log 106. -/
def State.imageAccess (s : State) (mode : HartMode) (core frame off : Nat) (write : Bool) (len : Nat) (data : List Byte) : State :=
  if !mode.system then s.hartFault write
  else
    match Assoc.find (groupKey core frame) s.groups with
    | none => s
    | some g =>
      if write then
        (if g.stop = .faulted ∧ off + data.length ≤ 0x30000 then s.setGroup (groupKey core frame) (g.writeImage off data) else s.hartFault true)
      else s.hartLoad ((List.range len).map (fun i => (g.imageByte (off + i), g.imagePoisoned (off + i) 1)))

/-- A hart's access to module memory, made now or left to wait: its home does not serve it, a store meets a shackled line, or an earlier
access of the hart that waits stands before it. A load of the notify window returns zero, and a store there is a notify store.
DEDUCED: log 105. -/
def State.hartAccess (s : State) (earlier : List HartReq) (r : HartReq) : State × Option HartReq :=
  let frames := framesOf r.addr r.span
  match s.notifyVector r.addr with
  | some v => (if r.write then s.notifyStore r.hart v true else s.hartLoad ((List.range r.len).map (fun _ => (0, false))), none)
  | none =>
    if frames.any (fun a => hartRefused r.mode r.mask (s.frameKey a)) then (s.hartFault r.write, none)
    else if frames.any (fun a => !s.populated a) then ((s.configError r.addr).hartFault r.write, none)
    else if r.behind earlier || (List.range r.span).any (fun i => s.homeWaits (r.addr + i)) || (r.write && s.spanShackled r.addr r.span) then
      (s, some r)
    else if r.write then ((s.softwareStore (cellsFrom r.addr r.data)).markOutside, none)
    else (s.hartLoad ((List.range r.span).map (fun i => (s.byte (r.addr + i), s.poisoned (r.addr + i)))), none)

/-- A hart's access as it is made, and one that waits as it is tried again. -/
def State.takeHart (s : State) (r : HartReq) : State :=
  match s.hartAccess s.hartq r with
  | (s1, some w) => { s1 with hartq := s1.hartq ++ [w] }
  | (s1, none) => s1
def State.retryHart (s : State) (i : Nat) : State :=
  match s.hartq[i]? with
  | some r =>
    if !r.memory then s
    else
      match s.hartAccess (s.hartq.take i) r with
      | (_, some _) => s
      | (s1, none) => { s1 with hartq := s1.hartq.eraseIdx i }
  | none => s

/-- A hart's access to a bus address behind a root port: it leaves through the port; a load through a port that is closed returns bytes that
no rule gives (11 R240).
DEDUCED: log 137. -/
def State.barAccess (s : State) (port bus : Nat) (write : Bool) (len : Nat) (data : List Byte) : State :=
  if s.portOpen port then { s with out := s.out ++ [.bar port bus write len data] }
  else if write then s
  else s.hartLoad ((List.range len).map (fun _ => (0, true)))

/-- A hart's access to a register of a root port: bus numbers and ACS control as stored, the count of errors logged, which writing 1 clears,
and the DPC status, whose clearing by writing 1 is the supervisor's release of the port (11 R238, R240, R251).
PRESUMED: log 151. -/
def State.portAccess (s : State) (port : Nat) (reg : PortReg) (write : Bool) (x : Nat) : State :=
  let p := Assoc.get {} s.portRegs port
  if write then
    match reg with
    | .secondary => { s with portRegs := Assoc.set {} s.portRegs port { p with secondary := BitVec.ofNat 8 x } }
    | .subordinate => { s with portRegs := Assoc.set {} s.portRegs port { p with subordinate := BitVec.ofNat 8 x } }
    | .acs => { s with portRegs := Assoc.set {} s.portRegs port { p with acs := BitVec.ofNat 2 x } }
    | .aer => if bitsOf x 0 1 = 1 then { s with aer := Assoc.set 0 s.aer port 0 } else s
    | .dpc => if bitsOf x 0 1 = 1 then { s with contained := Assoc.set false s.contained port false } else s
  else
    let v := match reg with
      | .secondary => p.secondary.toNat
      | .subordinate => p.subordinate.toNat
      | .acs => p.acs.toNat
      | .aer => Assoc.get 0 s.aer port
      | .dpc => b2n (Assoc.get false s.contained port)
    s.hartLoad ((leBytes 4 v).map (fun b => (b, false)))

/-! ### The control registers -/

/-- Registers of a block: offset, size, writable bits, bits that writing 1 clears. Every other bit ignores writes. -/
abbrev RegTable := List (Nat × Nat × Nat × Nat)

/-- The scheduler block (03 R63) and a submission queue's registers (03 R52). -/
def schedRegs : RegTable := [(0x00, 4, 0xFFF, 0)]
def queueRegs : RegTable :=
  [(0x00, 8, 2 ^ 64 - 1, 0), (0x08, 2, 0xFFFF, 0), (0x0C, 2, 0xFFFF, 0), (0x0E, 2, 1, 0), (0x10, 4, 0, 0x10000)]

/-- A device-written ring's registers (10 R213, 11 R241). -/
def ringRegs : RegTable := [(0x00, 8, 2 ^ 64 - 1, 0), (0x08, 2, 0xFFFF, 0), (0x0A, 2, 0xFFFF, 0), (0x0E, 2, 1, 0)]

/-- The translation control block (10 R213). -/
def transRegs : RegTable :=
  [(0x00, 8, 2 ^ 64 - 1, 0), (0x30, 8, 2 ^ 64 - 1, 0), (0x38, 2, 0xFFFF, 0), (0x3C, 4, 0x1F07, 0), (0x40, 4, 0, 2),
   (0x48, 8, 2 ^ 64 - 1, 0), (0x50, 8, 2 ^ 64 - 1, 0), (0x58, 4, 0, 6), (0x60, 8, 0x0000FFFF000FFFFF, 0), (0x68, 4, 0, 6)]

/-- The I/O control block (11 R241), a port's NTB registers, and a doorbell queue's record (11 R242). -/
def ioRegs : RegTable :=
  [(0x00, 8, 2 ^ 64 - 1, 0), (0x08, 8, 2 ^ 64 - 1, 0), (0x10, 8, 2 ^ 64 - 1, 0), (0x1C, 4, 2 ^ 32 - 1, 0), (0x20, 8, 2 ^ 64 - 1, 0),
   (0x28, 8, 2 ^ 64 - 1, 0), (0x30, 2, 0xFFFF, 0), (0x32, 2, 0xFFFF, 0), (0x36, 2, 1, 0), (0x40, 8, 0x1FFFF, 0), (0x48, 4, 0, 6),
   (0x50, 8, 2 ^ 64 - 1, 0), (0x58, 4, 2 ^ 32 - 1, 0), (0x210, 4, 0, 6)]
def ntbRegs : RegTable := [(0x00, 8, 2 ^ 64 - 1, 0), (0x08, 2, 0x7FFD, 0), (0x0A, 1, 0xFF, 0), (0x0B, 1, 1, 0), (0x0C, 2, 0xFFFF, 0)]
def dqRegs : RegTable :=
  [(0x00, 8, 2 ^ 64 - 1, 0), (0x08, 8, 2 ^ 64 - 1, 0), (0x10, 8, 2 ^ 64 - 1, 0), (0x18, 4, 2 ^ 32 - 1, 0), (0x1C, 2, 0xFFFF, 0),
   (0x1E, 2, 0xFFFF, 0), (0x20, 4, 2 ^ 32 - 1, 0), (0x28, 4, 1, 2)]

/-- The fabric control block (12 R266). -/
def fabricRegs : RegTable := [(0x00, 4, 0x1FF, 0), (0x08, 4, 0, 0xFF00), (0x0C, 4, 2 ^ 32 - 1, 0), (0x10, 8, 2 ^ 64 - 1, 0)]

/-- The memory and bring-up control block (13 R290). -/
def memctlRegs : RegTable :=
  [(0x420, 8, 2 ^ 64 - 1, 0), (0x42C, 4, 0xF, 0), (0x430, 4, 0, 0xE), (0x458, 8, 0x000FFFFFFFFFFF00, 0), (0x460, 4, 0, 6)]

/-- The table and the place in it of a register byte. -/
def regAt (b : Block) (o : Nat) : RegTable × Nat :=
  match b with
  | .sched => if o < 0x1000 then (schedRegs, o) else if o < 0x1800 then (queueRegs, o % 0x20) else ([], 0)
  | .trans => if 0x10 ≤ o ∧ o < 0x30 then (ringRegs, o % 0x10) else (transRegs, o)
  | .io =>
    if o < 0x100 then (ioRegs, o)
    else if o < 0x200 then (ringRegs, o % 0x10)
    else if o < 0x300 then (ioRegs, o)
    else if o < 0x400 then (ntbRegs, o % 0x20)
    else if 0x10000 ≤ o ∧ o < 0x50000 then (dqRegs, o % 0x40)
    else ([], 0)
  | .fabric => (fabricRegs, o)
  | .memctl => (memctlRegs, o)

/-- The writable bits and the write-one-to-clear bits of a register byte.
DEDUCED: log 101. -/
def regMasks (b : Block) (o : Nat) : Byte × Byte :=
  match (regAt b o).1.find? (fun r => decide (r.1 ≤ (regAt b o).2) && decide ((regAt b o).2 < r.1 + r.2.1)) with
  | some r =>
    let i := 8 * ((regAt b o).2 - r.1)
    (BitVec.ofNat 8 (r.2.2.1 / 2 ^ i), BitVec.ofNat 8 (r.2.2.2 / 2 ^ i))
  | none => (0, 0)

/-- Whether a register byte takes a value now: QBASE, QCAP and QTAIL of queues 8p + 7 do not (03 R52); a doorbell record only while
ENABLE is clear, and a write that would set ENABLE is a step of its own (11 R242); NTBLOG2 and ESCTIMER only in their range; NTBCTL only
while the port's link is down (11 R241).
DEDUCED: log 73. -/
def State.regTakes (s : State) (b : Block) (o : Nat) (v : Byte) (whole : Nat) : Bool :=
  match b with
  | .sched => !(decide (0x1000 ≤ o) && decide ((o - 0x1000) / 0x20 % 8 = 7) && decide (o % 0x20 < 0x0E))
  | .io =>
    if 0x300 ≤ o ∧ o < 0x400 then
      (if o % 0x20 = 0x0A then decide (20 ≤ v.toNat) && decide (v.toNat ≤ 40)
       else if o % 0x20 = 0x0B then !Assoc.get false s.links ((o - 0x300) / 0x20) else true)
    else if 0x10000 ≤ o then
      (if o % 0x40 < 0x28 then decide (s.ctlNat .io (o / 0x40 * 0x40 + 0x28) 4 % 2 = 0) else decide (v.toNat % 2 = 0) || decide (o % 0x40 ≠ 0x28))
    else true
  | .fabric => if 0x0C ≤ o ∧ o < 0x10 then decide (256 ≤ whole) && decide (whole ≤ 2 ^ 24) else true
  | _ => true

/-- One byte of a register after a write of `v` to it. -/
def State.regByteAfter (s : State) (b : Block) (o : Nat) (v : Byte) (whole : Nat) : Byte :=
  let m := if s.regTakes b o v whole then (regMasks b o).1 else 0
  ((s.ctlByte b o &&& ~~~m) ||| (v &&& m)) &&& ~~~(v &&& (regMasks b o).2)

/-- The registers that any write clears: ARRDROP, CECNT and UECNT.
DEDUCED: log 102. -/
def clearing (b : Block) (o : Nat) : Bool :=
  match b with
  | .io => decide (0x18 ≤ o) && decide (o < 0x1C)
  | .memctl => decide (0x410 ≤ o) && decide (o < 0x420)
  | _ => false

/-- Whether a write starts a command, and so is a step of its own: GO of a command register. -/
def startsCommand (b : Block) (off x : Nat) : Bool :=
  match b with
  | .trans =>
    (decide (off = 0x3C) && decide (bitsOf x 31 1 = 1)) || (decide (off = 0x44) && decide (bitsOf x 0 1 = 1)) ||
    (decide (off = 0x60) && decide (bitsOf x 63 1 = 1) && decide (bitsOf x 16 4 < 6))
  | .io => decide (off = 0x40) && decide (bitsOf x 63 1 = 1)
  | .memctl => (decide (off = 0x42C) && decide (bitsOf x 31 1 = 1)) || (decide (off = 0x458) && decide (bitsOf x 63 1 = 1))
  | _ => false

/-- The rings that the device writes. -/
def deviceRings : List Nat := [0, 1, 2] ++ (List.range 16).map (fun b => 16 + b)

/-- A ring that becomes enabled begins its first pass: its PHASE bit is 1 (10 R225). -/
def State.restartPhases (before after : State) : State :=
  { after with
    ringPhase := (deviceRings.filter (fun r => (after.ring r).enabled && !(before.ring r).enabled)).foldl
      (fun t r => Assoc.set true t r true) after.ringPhase }

/-- The bytes of a register write stored, each as its register takes it. -/
def State.storeReg (s : State) (b : Block) (off size x : Nat) : State :=
  let s1 : State := { s with ctl := ((leBytes size x).zipIdx).foldl (fun t v =>
    ctlSetByte t (b.at (off + v.2)) (if clearing b (off + v.2) then 0 else s.regByteAfter b (off + v.2) v.1 x)) s.ctl }
  -- a counter that any write clears is cleared whole
  let s2 := if b = .io ∧ off < 0x1C ∧ 0x18 < off + size then s1.ctlSet .io 0x18 4 0 else s1
  if b = .memctl ∧ 0x410 ≤ off ∧ off < 0x420 then s2.ctlSet .memctl (off / 4 * 4) 4 0 else s2

/-- A write of a control register that has no behaviour of its own. GROUPCMD with a reserved action is refused (10 R226). -/
def State.writeReg (s : State) (b : Block) (off size x : Nat) : State :=
  if startsCommand b off x then s
  else
    let s1 := s.restartPhases (s.storeReg b off size x)
    if b = .trans ∧ off = 0x60 ∧ size = 8 ∧ bitsOf x 63 1 = 1 then s1.raiseBit .trans 0x68 2 else s1

/-- Groups that wait at TRAP become ready once their block's ring has room (11 R259). -/
def State.wakeCallers (s : State) : State :=
  { s with groups := s.groups.map (fun x : Nat × Group =>
      if x.2.wait = .trapRoom ∧ (s.ring (16 + x.2.core / 16)).room = true then (x.1, s.readyNow { x.2 with wait := .none }) else x) }

/-- The control register block with a number. -/
def blockOf : Nat → Option Block
  | 0 => some .sched
  | 1 => some .trans
  | 2 => some .io
  | 3 => some .fabric
  | 4 => some .memctl
  | _ => none

/-- Whether a hart in a mode reaches a register: M or S mode; M mode alone for the memory and bring-up block and to write the NTB
registers (11 R252, 13 R290). -/
def blockReached (mode : HartMode) (b : Block) (off : Nat) (write : Bool) : Bool :=
  match b with
  | .memctl => decide (mode = .m)
  | .io => mode.system && (!write || decide (mode = .m) || !(decide (0x300 ≤ off) && decide (off < 0x400)))
  | _ => mode.system

/-- A write of a hart's own key mask CSRs. -/
def State.writeCsr (s : State) (hart : Nat) (csr x : Nat) : State :=
  let k := s.hartKeys hart
  let k1 := if csr = 0x7C0 then { k with mkeys := BitVec.ofNat 16 x } else if csr = 0x7C1 then { k with mgkeys := BitVec.ofNat 16 x } else k
  { s with harts := Assoc.set {} s.harts hart k1 }

/-- An HDM decoder is written: one of 16, its size a multiple of its ways times 256 bytes, its ways 1, 2, 4 or 8; any other value is
ignored (11 R239).
DEDUCED: log 132. -/
def State.writeHdm (s : State) (n base size ways : Nat) : State :=
  if n < 16 ∧ (ways = 1 ∨ ways = 2 ∨ ways = 4 ∨ ways = 8) ∧ size % (256 * ways) = 0 then
    { s with hdm := Assoc.set (0, 0, 0) s.hdm n (base, size, ways) }
  else s

/-- REGISTER_WRITE: a hart writes a control register that has no behaviour of its own, its key mask CSRs in M mode, or an HDM decoder. -/
def execRegisterWrite (s : State) : Host.Outcome State Fault Refusal :=
  let s1 := { s with input := .none }
  match s.input with
  | .register hart mode block off size value =>
    if !isHart hart then .next s1
    else
      match blockOf block with
      | some b => if blockReached mode b off true then .next ((s1.writeReg b off size value).wakeCallers) else .next (s1.hartFault true)
      | none => if block = 5 ∧ mode = .m then .next (s1.writeCsr hart off value) else .next s1
  | .hdm hart mode n base size ways => if isHart hart && mode.system then .next (s1.writeHdm n base size ways) else .next s1
  | _ => .next s1

/-! ### Register reads -/

/-- The 128 bytes of a requester ticket table entry (12 R280). Each byte of DATA stands at its place in the sector.
DESIGN CHOICE: log 150. -/
def State.ticketBytes (s : State) (t : TicketEntry) : List Byte :=
  let o := Assoc.find t.op s.ops
  let g := o.bind (fun o => Assoc.find o.group s.groups)
  let frame := match g with | some g => g.frame | none => 0
  let lbase := match g with | some g => g.lbase | none => 0
  let dest : Dest := match o with | some o => o.dest | none => .none
  let dreg := match dest with | .none => 0 | .lanes _ _ ls _ => ls.headD 0 - lbase | .uniform _ ks => 64 + ks.headD 0
  let first := t.access.kind.first
  let cells : List (Nat × Nat) := match t.access.kind with
    | .read cs => cs.map (fun c => (c.1 % 64, 0))
    | .write cs => cs.map (fun c => (c.1 % 64, c.2.toNat))
    | .rmw a n _ (.atom _ _ b _) => (List.range n).map (fun i => ((a + i) % 64, bitsOf b.toNat (8 * i) 8))
    | .rmw a n _ (.cas e _) => (List.range n).map (fun i => ((a + i) % 64, bitsOf e.toNat (8 * i) 8))
  let bmask := cells.foldl (fun m c => setBit m c.1) 0
  let uniform := match o with | some o => decide (0x80 ≤ o.opc) | none => false
  let lanes := if uniform then 0 else (t.access.served.foldl (fun m l => setBit m l) 0)
  let scope := match o with | some o => ((o.release.getD (o.acquire.getD 0)).toNat) | none => 0
  leBytes 1 t.state ++ leBytes 1 (match o with | some o => o.opc | none => 0) ++
  leBytes 1 ((match o with | some o => o.aop % 8 | none => 0) + 8 * scope) ++ leBytes 1 frame ++ leBytes 1 t.owner ++ leBytes 1 (t.hint % 16) ++
  leBytes 2 t.number ++ leBytes 8 (podVa t.owner (first / 64 * 64)) ++ leBytes 8 bmask ++ leBytes 4 lanes ++ leBytes 1 dreg ++
  leBytes 1 t.order ++ leBytes 2 0 ++
  (List.range 64).map (fun i => BitVec.ofNat 8 ((cells.find? (fun c => decide (c.1 = i))).map (fun c => c.2) |>.getD 0)) ++ leBytes 32 0

/-- A byte of a control register as a hart reads it: QSTAT's count, OTKT, the ticket table, SERIAL, and the bytes stored. -/
def State.regByte (s : State) (b : Block) (o : Nat) : Byte :=
  match b with
  | .sched =>
    if 0x1000 ≤ o ∧ o < 0x1800 ∧ 0x10 ≤ o % 0x20 ∧ o % 0x20 < 0x12 then
      BitVec.ofNat 8 (s.queueCount ((o - 0x1000) / 0x20) / 2 ^ (8 * (o % 0x20 - 0x10)))
    else s.ctlByte b o
  | .fabric =>
    if 0x40 ≤ o ∧ o < 0x44 then BitVec.ofNat 8 (s.tickets.length / 2 ^ (8 * (o - 0x40)))
    else if 0x10000 ≤ o ∧ o < 0x110000 then
      match Assoc.find (32 * ((o - 0x10000) / 0x1000) + (o - 0x10000) % 0x1000 / 0x80) s.rtkt with
      | some t => (s.ticketBytes t).getD (o % 0x80) 0
      | none => 0
    else s.ctlByte b o
  | .memctl => if 0x438 ≤ o ∧ o < 0x440 then BitVec.ofNat 8 (Config.serial.toNat / 2 ^ (8 * (o - 0x438))) else s.ctlByte b o
  | _ => s.ctlByte b o

/-- A hart's read of `size` bytes of a control register, or of one of its key mask CSRs in M mode. -/
def State.readReg (s : State) (hart : Nat) (mode : HartMode) (block off size : Nat) : State :=
  match blockOf block with
  | some b =>
    if blockReached mode b off false then s.hartLoad ((List.range size).map (fun i => (s.regByte b (off + i), false))) else s.hartFault false
  | none =>
    if block = 5 ∧ mode = .m then
      (if off = 0x7C0 then s.hartLoad ((leBytes 2 (s.hartKeys hart).mkeys.toNat).map (fun b => (b, false)))
       else if off = 0x7C1 then s.hartLoad ((leBytes 2 (s.hartKeys hart).mgkeys.toNat).map (fun b => (b, false)))
       else s)
    else s

/-- A hart's access to module memory under the key mask that it then has. -/
def hartReq (s : State) (hart : Nat) (mode : HartMode) (addr : Nat) (write : Bool) (len : Nat) (data : List Byte) : HartReq :=
  { hart := hart, mode := mode, mask := (s.hartKeys hart).effective mode, addr := addr, write := write, len := len, data := data }

/-- HART_MEMORY_ACCESS: an access of one of the 32 harts to module memory, to a context image, behind a root port or to a register of the port
itself, or its read of a control register; with a place of the harts' queue, the access that waits there. -/
def execHartMemoryAccess (s : State) : Host.Outcome State Fault Refusal :=
  let s1 := { s with input := .none }
  let by_ (hart : Nat) (t : State) : Host.Outcome State Fault Refusal := .next (if isHart hart then t else s1)
  match s.input with
  | .hart hart mode addr write len data => by_ hart (s1.takeHart (hartReq s hart mode addr write len data))
  | .image hart mode core frame off write len data => by_ hart (s1.imageAccess mode core frame off write len data)
  | .register hart mode block off size _ => by_ hart (s1.readReg hart mode block off size)
  | .bar hart _ port bus write len data => by_ hart (s1.barAccess port bus write len data)
  | .portReg hart mode port reg write x =>
    by_ hart (if port < 8 then (if mode.system then s1.portAccess port reg write x else s1.hartFault write) else s1)
  | .barReply _ data => .next (s1.hartLoad (data.map (fun b => (b, false))))
  | .one i => .next (s1.retryHart i)
  | _ => .next s1

end Sys2Proof.Machine
end

