-- ==== Sys2Proof/Machine/Auto.lean ====
section
/-! DEFINITION. Which step of the device comes next when nothing is at issue and no step is on the agenda: the device chooses among the
steps that it takes by itself. A step that comes from outside the module comes from the agenda alone. -/

namespace Sys2Proof.Machine

/-- A step and its input. -/
abbrev Choice := Instr × Input

/-- A step with the number that it names, with two numbers, and with no input. -/
def stepOne (i : Instr) (n : Nat) : Choice := (i, .one n)
def stepTwo (i : Instr) (a b : Nat) : Choice := (i, .two a b)
def stepBare (i : Instr) : Choice := (i, .none)

/-- Steps that are possible under a condition. -/
def whenever (b : Bool) (xs : List Choice) : List Choice := if b then xs else []

/-- Steps of launches: submissions, pending records, held launches, the placers, overlay loads (03 R53 to R62, 02 R40). -/
def State.launchSteps (s : State) : List Choice :=
  let qs : List Nat := (s.ctl.filter (fun c => decide (0x1000 ≤ c.1) && decide (c.1 < 0x1800) && decide (c.1 % 0x20 = 0x0E))).map
    (fun c => (c.1 - 0x1000) / 0x20)
  let dies : List Nat := [0, 1].filter (fun d => decide (Assoc.get 0 s.timers (2 + d) + 2 ≤ s.clock))
  List.flatten
    [ (qs.filter s.queueReady).map (stepOne .submissionEntryRead),
      (s.units.filter (fun u => match u.2.pending with | r :: _ => decide (r.entered + 64 ≤ s.clock) | [] => false)).map
        (fun u => stepOne .pendingLaunchAdmit u.1),
      s.launches.filterMap (fun l => (s.ringHead l.1 l.2).map (fun u => stepOne .pendingLaunchAdmit (unitKey l.1 u.ix))),
      (s.devq.filter (fun x => s.deviceReady x.1 x.2)).map (fun x => stepOne .accessTakesEffect x.1),
      (s.launches.filter (fun l => l.2.held)).map (fun l => stepOne .heldLaunchRecheck l.1),
      whenever (s.launches.any (fun l => l.2.placeable)) (dies.map (stepOne .placementOpportunity)),
      (s.slots.filter (fun x => x.2.loading.isSome)).map (fun x => stepOne .overlayPlacementLoadDone x.1) ]

/-- Partitions whose cycles matter: those that hold a group, and partition 0, whose cycles pass when no group is placed. -/
def State.activeParts (s : State) : List Nat :=
  (((s.groups.map (fun x : Nat × Group => x.2.partNo)).filter (fun p => !Assoc.get false s.draining (p / 4))) ++ [0]).eraseDups

/-- The lines of a group that are not present in its register cache (04 R75). -/
def Group.absentLines (g : Group) : List Nat :=
  (List.range 256).filter (fun n => g.absent.getLsbD n) ++ (if g.uAbsent then [256] else []) ++ (if g.pAbsent then [257] else []) ++
  ((List.range 8).filter (fun t => g.zAbsent.getLsbD t)).map (fun t => 258 + t)

/-- Steps of a group's matrix operation and of its geometric operation. -/
def State.engineSteps (s : State) (key : Nat) (g : Group) : List Choice :=
  let matrix : List Choice := match g.matrixOp with
    | some o =>
      List.flatten
        [ [stepOne (if o.dest.isSome && decide (g.mtmask ≠ 0xFFFF) then .microTileComplete else .matrixOpComplete) key],
          (((List.range 16).filter g.tileOpen).flatMap o.linesOf).map (fun ln => stepTwo .accessTakesEffect (2 ^ 40 + key) (2 * ln)),
          (((List.range 16).filter g.tileOpen).flatMap o.sectorsOf).map (fun k => stepTwo .accessTakesEffect (2 ^ 40 + key) (2 * k)),
          whenever o.dest.isNone ((o.pending (o.cells s g)).map (fun k => stepTwo .accessTakesEffect (2 ^ 40 + key) (2 * k + 1))) ]
    | none => []
  let geo : List Choice := match g.geoOp with
    | some o => (lanesOf o.open_).map (stepTwo .epuLaneDecided key) ++ whenever (decide (o.open_ = 0)) [stepOne .geometricComplete key]
    | none => []
  matrix ++ geo

/-- Steps of one group: swap-out, resume, register lines, its end, the end of a check phase, its engine operations. -/
def State.groupSteps (s : State) (key : Nat) (g : Group) : List Choice :=
  List.flatten
    [ whenever (g.resident && g.swapEligible && decide (g.waitSince + s.swapIdle ≤ s.now g)) [stepOne .swapidleExpiry key],
      whenever g.wantsSlot [stepOne .groupResume key],
      g.absentLines.map (stepTwo .registerLineLoad key),
      whenever ((g.ending || g.cancelled || decide (g.stop = .lost)) && s.quiet key g) [stepOne .groupEnd key],
      (match g.wait with
       | .held _ _ => [stepOne .checkPhaseDone key]
       | .replay _ _ => [stepOne .checkPhaseDone key]
       | _ => []),
      s.engineSteps key g ]

/-- Steps of one partition's matrix unit (03 R72, 10 R236), and the end of a reset of its core's EPU. -/
def State.muSteps (s : State) (n : Nat) (p : Part) : List Choice :=
  List.flatten
    [ (match p.mu with
       | .awake => whenever (decide (p.muLast + 1024 ≤ s.clock) && (s.muHolder n).isNone) [stepOne .muIdleEntry n]
       | .requested _ => [stepOne .muLeaveIdleStart n]
       | .waking t => whenever (decide (t + 32 ≤ s.clock)) [stepOne .muLeaveIdleDone n]
       | .resetting _ => [stepOne .muResetEnd n]
       | .idle => []),
      (match s.muHolder n with
       | some (_, _, o) => whenever (decide (o.progress + 65536 ≤ p.cycle)) [stepOne .muHangReset n]
       | none => []),
      whenever p.epuReset [stepOne .epuResetEnd (n / 4)] ]

/-- Steps of operations in flight: accesses, results, copy engines, locks, doorbells. -/
def State.operationSteps (s : State) : List Choice :=
  List.flatten
    [ s.ops.flatMap (fun o =>
        o.2.accs.map (fun a => stepTwo .accessTakesEffect o.1 a.1) ++ whenever o.2.finished [stepOne .loadDataReturn o.1]),
      s.copies.flatMap (fun c =>
        List.flatten
          [ [stepOne .copyEngineOpComplete c.1],
            (s.unread c.2).map (fun k => stepTwo .accessTakesEffect c.1 (2 * k)),
            (s.unwritten c.2).map (fun k => stepTwo .accessTakesEffect c.1 (2 * k + 1)),
            (match c.2.shape with | .ring _ _ _ => whenever c.2.slot.isNone [stepOne .copyrSlotAcquire c.1] | _ => []) ]),
      s.locks.map (fun l => match l.2.op with | .mcas _ _ _ => stepOne .mcasLocksComplete l.1 | _ => stepOne .heapDescriptorLocked l.1),
      s.bells.map (fun b => stepOne .doorbellMark b.1),
      whenever (s.waiters.any (fun w => !(s.shackled w.2.1 || s.homeWaits w.2.1))) [stepTwo .accessTakesEffect (2 ^ 50) 0] ]

/-- Steps of the fabric. -/
def State.fabricSteps (s : State) : List Choice :=
  List.flatten
    [ whenever (!s.waiting.isEmpty) [stepBare .remoteRequest],
      ((s.heldTickets.map (fun h => h.core)).eraseDups).map (stepOne .ticketTableEntry),
      s.flagged.filterMap (fun r => r.flagged.map (stepTwo .flaggedStorePerform r.src)),
      s.reports.map (fun r => stepTwo .markerReport r.1 r.2),
      s.planeNow.map (fun x => stepOne .planemapChangeApply x.1) ]

/-- Steps of I/O, of invalidations and migrations, and of rings that the device writes. -/
def State.ioSteps (s : State) : List Choice :=
  List.flatten
    [ ((s.arrivals.map (fun a => a.vector)).eraseDups).map (stepOne .arrivalQueueApply),
      s.endpoints.zipIdx.flatMap (fun x =>
        match x.1.kind with
        | .translation => [stepOne .atsTranslationRequest x.2]
        | .arrival _ => [stepOne .msiArrival x.2]
        | _ => (List.range x.1.todo.length).map (stepTwo .endpointMemoryRequest x.2)),
      s.hartq.zipIdx.map (fun x => stepOne (if x.1.call.isSome then .tcompl else if x.1.arrival.isSome then .notifyArrival else .hartMemoryAccess) x.2),
      (match s.arrcmd with | some x => [stepBare (if bitsOf x 16 1 = 0 then .arrcmdBind else .arrcmdUnbind)] | none => []),
      (match s.invalidation with
       | some v =>
         whenever v.awaiting.isEmpty [stepBare .invalidationComplete] ++
         whenever (!v.awaiting.isEmpty && decide (v.since + 800 * s.ctlNat .io 0x1C 4 ≤ s.clock)) [stepBare .atsInvalidateTimeout]
       | none => []),
      (match s.migration with
       | some m => [stepBare (if m.drained then .migrationCopyDone else .migrationDrainDone)]
       | none => []),
      (s.rings.filter (fun r => !r.2.isEmpty && s.ringOpen r.1)).map (fun r => stepOne .deviceRingRecordWrite r.1) ]

/-- Channels whose rate switch is in progress. -/
def State.switching (s : State) : List Nat :=
  (s.ctl.filter (fun c => decide (0x4000000 ≤ c.1) && decide (c.1 < 0x4000400) && decide (c.1 % 4 = 0) && c.2.getLsbD 4)).map
    (fun c => (c.1 - 0x4000000) / 4)

/-- Whether this module is a leader with a successor, which it keeps alive (13 R300). -/
def State.keepsAlive (s : State) : Bool :=
  s.leads && (s.pod.after mySerial).isSome && (decide (s.bootState = 1) || decide (s.bootState = 2))

/-- Whether a leader has sent nothing down its chain for half the time in which it must: it sends a keep-alive before anything else happens.
DEDUCED: log 94. -/
def State.keepaliveDue (s : State) : Bool := s.keepsAlive && decide (16 * 2 ^ 15 ≤ 35 * (s.clock - s.pod.sent))

/-- Steps of the weight store, the rate points, pod boot and spares, and periodic steps. The wait-for walk's period is in the management
core's own cycles: it runs at 2.4 GHz (00 R4, 08 R190). -/
def State.bootSteps (s : State) : List Choice :=
  let leading := s.leads && decide (s.bootState = 1)
  List.flatten
    [ whenever s.install.isSome [stepBare .weightInstallDone],
      s.switching.map (stepOne .hrateSwitchDone),
      whenever (leading && s.distributed) [stepBare .chipAssignment],
      whenever s.keepsAlive [stepBare .keepaliveSend],
      s.draining.map (fun c => (Instr.spareCoreDrainDone, Input.failure c.1 [] [] [])),
      (s.spares.filter (fun x => x.2.takeover)).map (fun x => (Instr.l2SpareTakeoverDone, Input.failure x.1 [] [] [])),
      whenever (decide (2 ^ 20 ≤ 3 * (s.clock - Assoc.get 0 s.timers 0))) [stepBare .waitforWalk],
      whenever (decide (Assoc.get 0 s.timers 1 + 256 ≤ s.clock)) [stepBare .activityForecastWrite] ]

/-- The steps of harts and of the firmware, which the boot ROM does not start in recovery (13 R304). -/
def firmwareSteps : List Instr :=
  [.hartMemoryAccess, .registerWrite, .tktdone, .planemapWrite, .podmaskWrite, .notifyArrival, .arrcmdBind, .arrcmdUnbind, .dqEnable, .prgresp,
   .invalidatePage, .invalidateRange, .invalidateJob, .invalidateAll, .migrationStart, .groupcmdReissue, .groupcmdSkip, .groupcmdLose,
   .groupcmdReplay, .groupcmdStop, .groupcmdRun, .svccmdRetry, .svccmdFail, .tcompl, .weightSwitch, .weightStoreInstall] ++
  [.hrateTargetWrite, .mucapWrite, .dpcRelease, .submissionEntryRead, .pendingLaunchAdmit, .heldLaunchRecheck, .placementOpportunity, .podElection,
   .chunkReceived, .chipAssignment, .leaderContact, .keepaliveSend, .keepaliveReceived, .upstreamSilent, .heldChunkReport, .chunkRerequest]

/-- Whether a step does not happen: the module is in recovery and nothing runs that would take it. -/
def State.heldBack (s : State) (i : Instr) : Bool := decide (s.bootState = 3) && firmwareSteps.contains i

/-- The steps that the device may take by itself, each with its input.
DESIGN CHOICE: log 6. -/
def State.candidates (s : State) : List Choice :=
  List.flatten
    [ s.activeParts.map (stepOne .issueCycle), s.launchSteps, s.groups.flatMap (fun x => s.groupSteps x.1 x.2),
      (List.range 1024).flatMap (fun n => s.muSteps n (s.part n)),
      (s.units.filter (fun u => decide (u.2.live = 0) && !u.2.retired)).map (fun u => stepOne .unitRetire u.1),
      s.operationSteps, s.fabricSteps, s.ioSteps, s.bootSteps ]

/-- The step that comes next: a keep-alive that is due, the only candidate, or the device's choice among several. -/
def State.choose (s : State) : Option Choice :=
  if s.keepaliveDue then some (stepBare .keepaliveSend) else
  match s.candidates with
  | [] => none
  | [x] => some x
  | xs => xs[Config.freeNat s.fresh 0 % xs.length]?

end Sys2Proof.Machine
end

