-- ==== Sys2Proof/Machine/LaneMem.lean ====
section
/-! DEFINITION. Lane loads, stores, PREF, and uniform loads and stores (17 R411 to R415, R437; 18 R455 to R459, R467, R468). -/

namespace Sys2Proof.Machine

/-- LD.B (17 R411). -/
def execLdB (d a : BitVec 6) (o : BitVec 9) (g : BitVec 3) (s : State) : Host.Outcome State Fault Refusal :=
  laneLoad (.ldB d a o g) s d a o.toInt 1 1 false none

/-- LD.BS (17 R411). -/
def execLdBs (d a : BitVec 6) (o : BitVec 9) (g : BitVec 3) (s : State) : Host.Outcome State Fault Refusal :=
  laneLoad (.ldBs d a o g) s d a o.toInt 1 1 true none

/-- LD.H (17 R411). -/
def execLdH (d a : BitVec 6) (o : BitVec 9) (g : BitVec 3) (s : State) : Host.Outcome State Fault Refusal :=
  laneLoad (.ldH d a o g) s d a o.toInt 2 1 false none

/-- LD.HS (17 R411). -/
def execLdHs (d a : BitVec 6) (o : BitVec 9) (g : BitVec 3) (s : State) : Host.Outcome State Fault Refusal :=
  laneLoad (.ldHs d a o g) s d a o.toInt 2 1 true none

/-- LD.W (17 R411). -/
def execLdW (d a : BitVec 6) (o : BitVec 9) (g : BitVec 3) (s : State) : Host.Outcome State Fault Refusal :=
  laneLoad (.ldW d a o g) s d a o.toInt 4 1 false none

/-- LD.D (17 R411). -/
def execLdD (d a : BitVec 6) (o : BitVec 9) (g : BitVec 3) (s : State) : Host.Outcome State Fault Refusal :=
  laneLoad (.ldD d a o g) s d a o.toInt 8 2 false none

/-- LD.Q (17 R411). -/
def execLdQ (d a : BitVec 6) (o : BitVec 9) (g : BitVec 3) (s : State) : Host.Outcome State Fault Refusal :=
  laneLoad (.ldQ d a o g) s d a o.toInt 16 4 false none

/-- LD.NT (17 R411). -/
def execLdNt (d a : BitVec 6) (o : BitVec 9) (g : BitVec 3) (s : State) : Host.Outcome State Fault Refusal :=
  laneLoad (.ldNt d a o g) s d a o.toInt 4 1 false none

/-- ST.B (18 R455). -/
def execStB (d a : BitVec 6) (o : BitVec 9) (g : BitVec 3) (s : State) : Host.Outcome State Fault Refusal :=
  laneStore (.stB d a o g) s d a o.toInt 1 1 none false

/-- ST.H (18 R455). -/
def execStH (d a : BitVec 6) (o : BitVec 9) (g : BitVec 3) (s : State) : Host.Outcome State Fault Refusal :=
  laneStore (.stH d a o g) s d a o.toInt 2 1 none false

/-- ST.W (18 R455). -/
def execStW (d a : BitVec 6) (o : BitVec 9) (g : BitVec 3) (s : State) : Host.Outcome State Fault Refusal :=
  laneStore (.stW d a o g) s d a o.toInt 4 1 none false

/-- ST.D (18 R455). -/
def execStD (d a : BitVec 6) (o : BitVec 9) (g : BitVec 3) (s : State) : Host.Outcome State Fault Refusal :=
  laneStore (.stD d a o g) s d a o.toInt 8 2 none false

/-- ST.Q (18 R455). -/
def execStQ (d a : BitVec 6) (o : BitVec 9) (g : BitVec 3) (s : State) : Host.Outcome State Fault Refusal :=
  laneStore (.stQ d a o g) s d a o.toInt 16 4 none false

/-- ST.OF: the ordered-flag store, at pod scope (18 R458). -/
def execStOf (d a : BitVec 6) (w : BitVec 2) (g : BitVec 3) (s : State) : Host.Outcome State Fault Refusal :=
  laneStore (.stOf d a w g) s d a 0 (4 * 2 ^ w.toNat) (2 ^ w.toNat) none true

/-- LDA: an acquire load (17 R415). -/
def execLda (d a : BitVec 6) (c : BitVec 3) (w : BitVec 2) (g : BitVec 3) (s : State) : Host.Outcome State Fault Refusal :=
  laneLoad (.lda d a c w g) s d a 0 (4 * 2 ^ w.toNat) (2 ^ w.toNat) false (some c)

/-- STL: a release store (18 R459). -/
def execStl (d a : BitVec 6) (c : BitVec 3) (w : BitVec 2) (g : BitVec 3) (s : State) : Host.Outcome State Fault Refusal :=
  laneStore (.stl d a c w g) s d a 0 (4 * 2 ^ w.toNat) (2 ^ w.toNat) (some c) false

/-- PREF: brings lines toward the caches, changes no value, orders nothing and never faults (17 R437). -/
def execPref (l : BitVec 1) (a : BitVec 6) (o : BitVec 9) (g : BitVec 3) (s : State) : Host.Outcome State Fault Refusal :=
  simple (.pref l a o g) s (fun _ => []) (fun c => c.retire c.g 0)

/-- ULD.B (18 R467). -/
def execUldB (d a : BitVec 5) (im : BitVec 11) (st : BitVec 3) (s : State) : Host.Outcome State Fault Refusal :=
  uniformLoad (.uldB d a im st) s d a im 1 st

/-- ULD.H (18 R467). -/
def execUldH (d a : BitVec 5) (im : BitVec 11) (st : BitVec 3) (s : State) : Host.Outcome State Fault Refusal :=
  uniformLoad (.uldH d a im st) s d a im 2 st

/-- ULD.W (18 R467). -/
def execUldW (d a : BitVec 5) (im : BitVec 11) (st : BitVec 3) (s : State) : Host.Outcome State Fault Refusal :=
  uniformLoad (.uldW d a im st) s d a im 4 st

/-- ULD.D (18 R467). -/
def execUldD (d a : BitVec 5) (im : BitVec 11) (st : BitVec 3) (s : State) : Host.Outcome State Fault Refusal :=
  uniformLoad (.uldD d a im st) s d a im 8 st

/-- UST.B (18 R467). -/
def execUstB (d a : BitVec 5) (im : BitVec 11) (st : BitVec 3) (s : State) : Host.Outcome State Fault Refusal :=
  uniformStore (.ustB d a im st) s d a im 1 st

/-- UST.H (18 R467). -/
def execUstH (d a : BitVec 5) (im : BitVec 11) (st : BitVec 3) (s : State) : Host.Outcome State Fault Refusal :=
  uniformStore (.ustH d a im st) s d a im 2 st

/-- UST.W (18 R467). -/
def execUstW (d a : BitVec 5) (im : BitVec 11) (st : BitVec 3) (s : State) : Host.Outcome State Fault Refusal :=
  uniformStore (.ustW d a im st) s d a im 4 st

/-- UST.D (18 R467). -/
def execUstD (d a : BitVec 5) (im : BitVec 11) (st : BitVec 3) (s : State) : Host.Outcome State Fault Refusal :=
  uniformStore (.ustD d a im st) s d a im 8 st

end Sys2Proof.Machine
end

