-- ==== Sys2Proof/Machine/Special.lean ====
section
/-! DEFINITION. The special registers: SRD, SWR and TAGR (04 R93 to R95; 18 R453, R454, R461). -/

namespace Sys2Proof.Machine

/-- The value of a special register other than LANE, by number (04 R93). -/
def Group.spr (g : Group) (r : Nat) : Word :=
  match r with
  | 0x001 => w32 g.groupix.toNat
  | 0x002 => w32 g.unitix.toNat
  | 0x003 => w32 g.cluix.toNat
  | 0x004 => g.launchid
  | 0x005 => w32 g.role.code
  | 0x006 => w32 g.core
  | 0x007 => w32 g.part
  | 0x010 => w32 g.rmode
  | 0x011 => w32 (g.fexc.toNat % 32)
  | 0x012 => w32 (g.fnan.toNat % 2 ^ 27 + bitsOf g.fnan.toNat 31 1 * 2 ^ 31)
  | 0x013 => w32 (b2n g.chk)
  | 0x014 => w32 (g.lbase % 256)
  | 0x015 => w32 g.wdepth
  | 0x018 => w32 g.mtmask.toNat
  | 0x019 => w32 g.geostg.toNat
  | 0x01A => w32 (g.geostg.toNat / 2 ^ 32)
  | 0x01B => g.geodone
  | 0x01C => g.geocnt
  | 0x020 => w32 g.ctrCopy.toNat
  | 0x021 => w32 g.ctrMatrix.toNat
  | 0x022 => w32 g.ctrRemote.toNat
  | 0x023 => w32 g.ctrIo.toNat
  | 0x028 => w32 (g.qthr.toNat % 64)
  | 0x029 => g.bphase
  | 0x030 => w32 (g.frec.faultword.toNat % 2 ^ 24)
  | 0x031 => w32 g.frec.faddr.toNat
  | 0x032 => w32 (g.frec.faddr.toNat / 2 ^ 32 % 2 ^ 24)
  | 0x040 => g.tickets
  | 0x050 => g.wgen
  | 0x060 => w32 g.keymask.toNat
  | _ => 0

/-- SRD (18 R453); those that an instruction in flight holds back complete as they issue, behind it (14 R318). -/
def execSrd (k : BitVec 1) (d : BitVec 6) (r : BitVec 11) (st : BitVec 3) (s : State) : Host.Outcome State Fault Refusal :=
  simple (.srd k d r st) s (fun _ => [])
    (fun c =>
      let lat := (shapeOf c.g (.srd k d r st)).latency
      if k = 1 then
        let x : Lanes Word := if r = 0 then Lanes.ofFn (fun l => w32 l.val) else Lanes.fill (c.g.spr r.toNat)
        c.retire (c.writeLanes c.f.mask lat [(d.toNat, x, tU32)]) st.toNat
      else c.retire (c.g.writeK d.toNat (c.g.spr r.toNat) c.now lat) st.toNat)

/-- Whether a value may be written to a special register: no reserved bit, and no reserved rounding mode (04 R93). -/
def sprAccepts (r : Nat) (x : Word) : Bool :=
  match r with
  | 0x010 => decide (x.toNat < 5)
  | 0x011 => decide (x.toNat < 32)
  | 0x012 => decide (bitsOf x.toNat 27 4 = 0)
  | 0x013 => decide (x.toNat < 2)
  | 0x018 => decide (x.toNat < 2 ^ 16)
  | 0x01C => true
  | 0x028 => decide (x.toNat < 64)
  | _ => false

/-- A group with a special register written. -/
def Group.setSpr (g : Group) (r : Nat) (x : Word) : Group :=
  match r with
  | 0x010 => { g with mode := BitVec.ofNat 8 (setBits g.mode.toNat 0 3 x.toNat) }
  | 0x011 => { g with fexc := BitVec.ofNat 8 x.toNat }
  | 0x012 => { g with fnan := x }
  | 0x013 => { g with mode := BitVec.ofNat 8 (setBits g.mode.toNat 3 1 x.toNat) }
  | 0x018 => { g with mtmask := BitVec.ofNat 16 x.toNat }
  | 0x01C => { g with geocnt := x }
  | 0x028 => { g with qthr := BitVec.ofNat 8 x.toNat }
  | _ => g

/-- SWR (18 R454). -/
def execSwr (d : BitVec 5) (r : BitVec 11) (st : BitVec 3) (s : State) : Host.Outcome State Fault Refusal :=
  simple (.swr d r st) s
    (fun c => if sprAccepts r.toNat (c.kf d) then [] else [illegal])
    (fun c => c.retire (c.g.setSpr r.toNat (c.kf d)) st.toNat)

/-- TAGR (18 R461): with MOD 1 it names a tile, for the matrix role alone; a reserved tag raises a tag trap (05 R98). -/
def execTagr (d : BitVec 5) (v : BitVec 6) (m : BitVec 2) (st : BitVec 3) (s : State) : Host.Outcome State Fault Refusal :=
  perform (.tagr d v m st) s
    (fun c => if m = 1 ∧ c.g.role ≠ .matrix then [{ kind := 0x02 }] else [])
    (fun _ => false)
    (fun c => if m = 1 ∧ tagAssigned (c.g.tileTag (v.toNat % 8)) = false then [tagTrap 0] else [])
    (fun c =>
      let t : BitVec 5 := if m = 1 then c.g.tileTag (v.toNat % 8) else (c.tagOf v).getD 0
      c.retire (c.g.writeK d.toNat (t.zeroExtend 32) c.now 2) st.toNat)

end Sys2Proof.Machine
end

