-- ==== Sys2Proof/Machine/UniformInt.lean ====
section
/-! DEFINITION. Uniform integer instructions, RDL, RFAL and VLANE (18 R446, R464 to R466, R469). -/

namespace Sys2Proof.Machine

/-- A uniform instruction that writes one k register with a fixed latency. -/
def uniInstr (i : Instr) (s : State) (d : BitVec 5) (f : Ctx → Word) : Host.Outcome State Fault Refusal :=
  simple i s (fun _ => []) (fun c =>
    let sh := shapeOf c.g i
    c.retire (c.g.writeK d.toNat (f c) c.now sh.latency) sh.stall)

/-- A uniform instruction of two sources. -/
def uni2 (i : Instr) (s : State) (d a b : BitVec 5) (f : Word → Word → Word) : Host.Outcome State Fault Refusal :=
  uniInstr i s d (fun c => f (c.kf a) (c.kf b))

/-- A uniform instruction of one source. -/
def uni1 (i : Instr) (s : State) (d a : BitVec 5) (f : Word → Word) : Host.Outcome State Fault Refusal :=
  uniInstr i s d (fun c => f (c.kf a))

/-- UADD (18 R465). -/
def execUadd (d a b : BitVec 5) (q : BitVec 2) (st : BitVec 3) (s : State) : Host.Outcome State Fault Refusal :=
  uni2 (.uadd d a b q st) s d a b (· + ·)

/-- USUB (18 R465). -/
def execUsub (d a b : BitVec 5) (q : BitVec 2) (st : BitVec 3) (s : State) : Host.Outcome State Fault Refusal :=
  uni2 (.usub d a b q st) s d a b (· - ·)

/-- UMUL (18 R465). -/
def execUmul (d a b : BitVec 5) (q : BitVec 2) (st : BitVec 3) (s : State) : Host.Outcome State Fault Refusal :=
  uni2 (.umul d a b q st) s d a b (· * ·)

/-- UMULH (18 R465). -/
def execUmulh (d a b : BitVec 5) (q : BitVec 2) (st : BitVec 3) (s : State) : Host.Outcome State Fault Refusal :=
  uni2 (.umulh d a b q st) s d a b mulHighS

/-- UMULH.U (18 R465). -/
def execUmulhU (d a b : BitVec 5) (q : BitVec 2) (st : BitVec 3) (s : State) : Host.Outcome State Fault Refusal :=
  uni2 (.umulhU d a b q st) s d a b mulHighU

/-- UAND (18 R465). -/
def execUand (d a b : BitVec 5) (q : BitVec 2) (st : BitVec 3) (s : State) : Host.Outcome State Fault Refusal :=
  uni2 (.uand d a b q st) s d a b (· &&& ·)

/-- UOR (18 R465). -/
def execUor (d a b : BitVec 5) (q : BitVec 2) (st : BitVec 3) (s : State) : Host.Outcome State Fault Refusal :=
  uni2 (.uor d a b q st) s d a b (· ||| ·)

/-- UXOR (18 R465). -/
def execUxor (d a b : BitVec 5) (q : BitVec 2) (st : BitVec 3) (s : State) : Host.Outcome State Fault Refusal :=
  uni2 (.uxor d a b q st) s d a b (· ^^^ ·)

/-- USHL (18 R465). -/
def execUshl (d a b : BitVec 5) (q : BitVec 2) (st : BitVec 3) (s : State) : Host.Outcome State Fault Refusal :=
  uni2 (.ushl d a b q st) s d a b (fun x y => shl x (bitsOf y.toNat 0 8))

/-- USHR (18 R465). -/
def execUshr (d a b : BitVec 5) (q : BitVec 2) (st : BitVec 3) (s : State) : Host.Outcome State Fault Refusal :=
  uni2 (.ushr d a b q st) s d a b (fun x y => shr x (bitsOf y.toNat 0 8))

/-- USAR (18 R465). -/
def execUsar (d a b : BitVec 5) (q : BitVec 2) (st : BitVec 3) (s : State) : Host.Outcome State Fault Refusal :=
  uni2 (.usar d a b q st) s d a b (fun x y => sar x (bitsOf y.toNat 0 8))

/-- UMIN (18 R465). -/
def execUmin (d a b : BitVec 5) (q : BitVec 2) (st : BitVec 3) (s : State) : Host.Outcome State Fault Refusal :=
  uni2 (.umin d a b q st) s d a b minS

/-- UMIN.U (18 R465). -/
def execUminU (d a b : BitVec 5) (q : BitVec 2) (st : BitVec 3) (s : State) : Host.Outcome State Fault Refusal :=
  uni2 (.uminU d a b q st) s d a b minU

/-- UMAX (18 R465). -/
def execUmax (d a b : BitVec 5) (q : BitVec 2) (st : BitVec 3) (s : State) : Host.Outcome State Fault Refusal :=
  uni2 (.umax d a b q st) s d a b maxS

/-- UMAX.U (18 R465). -/
def execUmaxU (d a b : BitVec 5) (q : BitVec 2) (st : BitVec 3) (s : State) : Host.Outcome State Fault Refusal :=
  uni2 (.umaxU d a b q st) s d a b maxU

/-- UADDI (18 R465). -/
def execUaddi (d a : BitVec 5) (im : BitVec 11) (st : BitVec 3) (s : State) : Host.Outcome State Fault Refusal :=
  uni1 (.uaddi d a im st) s d a (fun x => x + im.signExtend 32)

/-- UANDI (18 R465). -/
def execUandi (d a : BitVec 5) (im : BitVec 11) (st : BitVec 3) (s : State) : Host.Outcome State Fault Refusal :=
  uni1 (.uandi d a im st) s d a (fun x => x &&& im.zeroExtend 32)

/-- UORI (18 R465). -/
def execUori (d a : BitVec 5) (im : BitVec 11) (st : BitVec 3) (s : State) : Host.Outcome State Fault Refusal :=
  uni1 (.uori d a im st) s d a (fun x => x ||| im.zeroExtend 32)

/-- USHLI (18 R465). -/
def execUshli (d a : BitVec 5) (im : BitVec 5) (st : BitVec 3) (s : State) : Host.Outcome State Fault Refusal :=
  uni1 (.ushli d a im st) s d a (fun x => shl x im.toNat)

/-- USHRI (18 R465). -/
def execUshri (d a : BitVec 5) (im : BitVec 5) (st : BitVec 3) (s : State) : Host.Outcome State Fault Refusal :=
  uni1 (.ushri d a im st) s d a (fun x => shr x im.toNat)

/-- UMOV (18 R465). -/
def execUmov (d a : BitVec 5) (q : BitVec 2) (st : BitVec 3) (s : State) : Host.Outcome State Fault Refusal :=
  uni1 (.umov d a q st) s d a (fun x => x)

/-- UPOPC (18 R465). -/
def execUpopc (d a : BitVec 5) (q : BitVec 2) (st : BitVec 3) (s : State) : Host.Outcome State Fault Refusal :=
  uni1 (.upopc d a q st) s d a (fun x => w32 (popcount x))

/-- UCLZ (18 R465). -/
def execUclz (d a : BitVec 5) (q : BitVec 2) (st : BitVec 3) (s : State) : Host.Outcome State Fault Refusal :=
  uni1 (.uclz d a q st) s d a (fun x => w32 (leadingZeros x))

/-- UMOVI (18 R465). -/
def execUmovi (d : BitVec 5) (im : BitVec 16) (st : BitVec 3) (s : State) : Host.Outcome State Fault Refusal :=
  uniInstr (.umovi d im st) s d (fun _ => im.signExtend 32)

/-- ULUI (18 R465). -/
def execUlui (d : BitVec 5) (im : BitVec 16) (st : BitVec 3) (s : State) : Host.Outcome State Fault Refusal :=
  uniInstr (.ului d im st) s d (fun _ => im.zeroExtend 32 <<< 16)

/-- UMAD (18 R465). -/
def execUmad (d a b c : BitVec 5) (s : State) : Host.Outcome State Fault Refusal :=
  uniInstr (.umad d a b c) s d (fun x => x.kf a * x.kf b + x.kf c)

/-- UBFE: MOD[0] sign-extends the field (18 R466). -/
def execUbfe (d a b : BitVec 5) (m : BitVec 1) (q : BitVec 2) (st : BitVec 3) (s : State) : Host.Outcome State Fault Refusal :=
  uni2 (.ubfe d a b m q st) s d a b (fun x y => if m = 1 then bfeS x y else bfe x y)

/-- UBFI: kC with a inserted at the field that b names (18 R466). -/
def execUbfi (d a b c : BitVec 5) (s : State) : Host.Outcome State Fault Refusal :=
  uniInstr (.ubfi d a b c) s d (fun x => bfi (x.kf c) (x.kf a) (x.kf b))

/-- UADD64: a pair sum (18 R466). -/
def execUadd64 (d a b : BitVec 5) (q : BitVec 2) (st : BitVec 3) (s : State) : Host.Outcome State Fault Refusal :=
  simple (.uadd64 d a b q st) s (fun _ => []) (fun c =>
    let t := c.kpair a + c.kpair b
    let g1 := c.g.writeK d.toNat (w32 t) c.now 1
    c.retire (g1.writeK (d.toNat + 1) (w32 (t / 2 ^ 32)) c.now 1) st.toNat)

/-- USETP: a uniform predicate; destination 3 writes none (18 R466). -/
def execUsetp (d a b : BitVec 5) (cc : BitVec 3) (q : BitVec 2) (st : BitVec 3) (s : State) :
    Host.Outcome State Fault Refusal :=
  simple (.usetp d a b cc q st) s (fun _ => []) (fun c =>
    c.retire (c.g.writeQ d.toNat (compareInt cc 32 (c.kf a).toNat (c.kf b).toNat) c.now 1) st.toNat)

/-- USEL: selection by a uniform predicate (18 R466). -/
def execUsel (d a b : BitVec 5) (m q : BitVec 2) (st : BitVec 3) (s : State) : Host.Outcome State Fault Refusal :=
  uniInstr (.usel d a b m q st) s d (fun c => if c.q m.toNat then c.kf a else c.kf b)

/-! ### Lane exchange -/

/-- RDL: one lane of a lane register, as its bits stand (18 R446). -/
def execRdl (d : BitVec 5) (v : BitVec 6) (b : BitVec 5) (st : BitVec 3) (s : State) : Host.Outcome State Fault Refusal :=
  uniInstr (.rdl d v b st) s d (fun c => lane (c.val v) (bitsOf (c.kf b).toNat 0 5))

/-- RFAL: the value, or with MOD 1 the index, of the lowest lane of ACTIVE AND p (18 R446). -/
def execRfal (d : BitVec 5) (v : BitVec 6) (p : BitVec 3) (m : BitVec 2) (st : BitVec 3) (s : State) :
    Host.Outcome State Fault Refusal :=
  uniInstr (.rfal d v p m st) s d (fun c =>
    let f := lowestLane (c.f.mask &&& c.p p.toNat)
    if f = 32 then (if m = 1 then 32 else 0) else if m = 1 then w32 f else lane (c.val v) f)

/-- The summary of a lane set that VLANE writes (18 R469): the set, its counts, or whether a register agrees over it. -/
def vlaneValue (m : BitVec 2) (act set : Mask) (x : Lanes Word) : Word :=
  match m.toNat with
  | 0 => set
  | 1 => w32 (popcount set + 2 ^ 8 * b2n (decide (set = act)) + 2 ^ 9 * b2n (decide (set ≠ 0)))
  | _ => w32 (b2n ((lanesOf set).all (fun l => decide (lane x l = lane x (lowestLane set)))))

/-- VLANE. -/
def execVlane (d : BitVec 5) (v : BitVec 6) (p : BitVec 3) (m : BitVec 2) (st : BitVec 3) (s : State) :
    Host.Outcome State Fault Refusal :=
  uniInstr (.vlane d v p m st) s d (fun c => vlaneValue m c.f.mask (c.f.mask &&& c.p p.toNat) (c.val v))

end Sys2Proof.Machine
end

