-- ==== Sys2Proof/Machine/Dispatch.lean ====
section
/-! DEFINITION. The dispatch: one arm per instruction and device step. -/

namespace Sys2Proof.Machine

/-- The meaning of every instruction and device step. -/
def exec (i : Instr) (s : State) : Host.Outcome State Fault Refusal :=
  match i with
  | .iadd d a b g st => Sys2Proof.Machine.execIadd d a b g st s
  | .isub d a b g st => Sys2Proof.Machine.execIsub d a b g st s
  | .iaddi d a im st => Sys2Proof.Machine.execIaddi d a im st s
  | .imul d a b g st => Sys2Proof.Machine.execImul d a b g st s
  | .imulh d a b g st => Sys2Proof.Machine.execImulh d a b g st s
  | .imulhU d a b g st => Sys2Proof.Machine.execImulhU d a b g st s
  | .imad d a b g st => Sys2Proof.Machine.execImad d a b g st s
  | .imin d a b g st => Sys2Proof.Machine.execImin d a b g st s
  | .iminU d a b g st => Sys2Proof.Machine.execIminU d a b g st s
  | .imax d a b g st => Sys2Proof.Machine.execImax d a b g st s
  | .imaxU d a b g st => Sys2Proof.Machine.execImaxU d a b g st s
  | .iabs d a g st => Sys2Proof.Machine.execIabs d a g st s
  | .add64 d a b g st => Sys2Proof.Machine.execAdd64 d a b g st s
  | .lea d a b g st => Sys2Proof.Machine.execLea d a b g st s
  | .leaD d a b g st => Sys2Proof.Machine.execLeaD d a b g st s
  | .and d a b g st => Sys2Proof.Machine.execAnd d a b g st s
  | .or d a b g st => Sys2Proof.Machine.execOr d a b g st s
  | .xor d a b g st => Sys2Proof.Machine.execXor d a b g st s
  | .not d a g st => Sys2Proof.Machine.execNot d a g st s
  | .andi d a im st => Sys2Proof.Machine.execAndi d a im st s
  | .ori d a im st => Sys2Proof.Machine.execOri d a im st s
  | .xori d a im st => Sys2Proof.Machine.execXori d a im st s
  | .iaddSat d a b g st => Sys2Proof.Machine.execIaddSat d a b g st s
  | .shl d a b g st => Sys2Proof.Machine.execShl d a b g st s
  | .shr d a b g st => Sys2Proof.Machine.execShr d a b g st s
  | .sar d a b g st => Sys2Proof.Machine.execSar d a b g st s
  | .shli d a im st => Sys2Proof.Machine.execShli d a im st s
  | .shri d a im st => Sys2Proof.Machine.execShri d a im st s
  | .sari d a im st => Sys2Proof.Machine.execSari d a im st s
  | .popc d a g st => Sys2Proof.Machine.execPopc d a g st s
  | .clz d a g st => Sys2Proof.Machine.execClz d a g st s
  | .brev d a g st => Sys2Proof.Machine.execBrev d a g st s
  | .bfe d a b g st => Sys2Proof.Machine.execBfe d a b g st s
  | .bfeS d a b g st => Sys2Proof.Machine.execBfeS d a b g st s
  | .bfi d a b g st => Sys2Proof.Machine.execBfi d a b g st s
  | .itest p c a b g st => Sys2Proof.Machine.execItest p c a b g st s
  | .sel d a b m st => Sys2Proof.Machine.execSel d a b m st s
  | .mov d a g st => Sys2Proof.Machine.execMov d a g st s
  | .movi d im st => Sys2Proof.Machine.execMovi d im st s
  | .slane d a b m st => Sys2Proof.Machine.execSlane d a b m st s
  | .isubSat d a b g st => Sys2Proof.Machine.execIsubSat d a b g st s
  | .idot4 d a b g st => Sys2Proof.Machine.execIdot4 d a b g st s
  | .idot8 d a b g st => Sys2Proof.Machine.execIdot8 d a b g st s
  | .pswz d a b g st => Sys2Proof.Machine.execPswz d a b g st s
  | .itestD p c a b g st => Sys2Proof.Machine.execItestD p c a b g st s
  | .fadd d a b g st => Sys2Proof.Machine.execFadd d a b g st s
  | .fsub d a b g st => Sys2Proof.Machine.execFsub d a b g st s
  | .fmul d a b g st => Sys2Proof.Machine.execFmul d a b g st s
  | .fma d a b g st => Sys2Proof.Machine.execFma d a b g st s
  | .fms d a b g st => Sys2Proof.Machine.execFms d a b g st s
  | .fnma d a b g st => Sys2Proof.Machine.execFnma d a b g st s
  | .fmin d a b g st => Sys2Proof.Machine.execFmin d a b g st s
  | .fmax d a b g st => Sys2Proof.Machine.execFmax d a b g st s
  | .fabs d a g st => Sys2Proof.Machine.execFabs d a g st s
  | .fneg d a g st => Sys2Proof.Machine.execFneg d a g st s
  | .ftest p c a b g st => Sys2Proof.Machine.execFtest p c a b g st s
  | .fclass d a g st => Sys2Proof.Machine.execFclass d a g st s
  | .frcp d a g st => Sys2Proof.Machine.execFrcp d a g st s
  | .frsq d a g st => Sys2Proof.Machine.execFrsq d a g st s
  | .fsqrt d a g st => Sys2Proof.Machine.execFsqrt d a g st s
  | .fexp2 d a g st => Sys2Proof.Machine.execFexp2 d a g st s
  | .flog2 d a g st => Sys2Proof.Machine.execFlog2 d a g st s
  | .fsin d a g st => Sys2Proof.Machine.execFsin d a g st s
  | .fcos d a g st => Sys2Proof.Machine.execFcos d a g st s
  | .frnd d a f r st => Sys2Proof.Machine.execFrnd d a f r st s
  | .fscl d a b g st => Sys2Proof.Machine.execFscl d a b g st s
  | .fcvt d a f r st => Sys2Proof.Machine.execFcvt d a f r st s
  | .icvt d a f r st => Sys2Proof.Machine.execIcvt d a f r st s
  | .tag d a f st => Sys2Proof.Machine.execTag d a f st s
  | .fdot2 d a b g st => Sys2Proof.Machine.execFdot2 d a b g st s
  | .fdot4 d a b g st => Sys2Proof.Machine.execFdot4 d a b g st s
  | .orient2 d a im x n f => Sys2Proof.Machine.execOrient2 d a im x n f s
  | .orient3 d a im x n f => Sys2Proof.Machine.execOrient3 d a im x n f s
  | .incirc d a im x n f => Sys2Proof.Machine.execIncirc d a im x n f s
  | .insph d a im x n f => Sys2Proof.Machine.execInsph d a im x n f s
  | .segx d a im x n f => Sys2Proof.Machine.execSegx d a im x n f s
  | .ldB d a o g => Sys2Proof.Machine.execLdB d a o g s
  | .ldBs d a o g => Sys2Proof.Machine.execLdBs d a o g s
  | .ldH d a o g => Sys2Proof.Machine.execLdH d a o g s
  | .ldHs d a o g => Sys2Proof.Machine.execLdHs d a o g s
  | .ldW d a o g => Sys2Proof.Machine.execLdW d a o g s
  | .ldD d a o g => Sys2Proof.Machine.execLdD d a o g s
  | .ldQ d a o g => Sys2Proof.Machine.execLdQ d a o g s
  | .ldNt d a o g => Sys2Proof.Machine.execLdNt d a o g s
  | .stB d a o g => Sys2Proof.Machine.execStB d a o g s
  | .stH d a o g => Sys2Proof.Machine.execStH d a o g s
  | .stW d a o g => Sys2Proof.Machine.execStW d a o g s
  | .stD d a o g => Sys2Proof.Machine.execStD d a o g s
  | .stQ d a o g => Sys2Proof.Machine.execStQ d a o g s
  | .stOf d a w g => Sys2Proof.Machine.execStOf d a w g s
  | .lda d a c w g => Sys2Proof.Machine.execLda d a c w g s
  | .stl d a c w g => Sys2Proof.Machine.execStl d a c w g s
  | .atomW d a b c o => Sys2Proof.Machine.execAtomW d a b c o s
  | .atomD d a b c o => Sys2Proof.Machine.execAtomD d a b c o s
  | .casW d a b c => Sys2Proof.Machine.execCasW d a b c s
  | .casD d a b c => Sys2Proof.Machine.execCasD d a b c s
  | .pref l a o g => Sys2Proof.Machine.execPref l a o g s
  | .nop st => Sys2Proof.Machine.execNop st s
  | .uadd d a b q st => Sys2Proof.Machine.execUadd d a b q st s
  | .usub d a b q st => Sys2Proof.Machine.execUsub d a b q st s
  | .uaddi d a im st => Sys2Proof.Machine.execUaddi d a im st s
  | .umul d a b q st => Sys2Proof.Machine.execUmul d a b q st s
  | .umulh d a b q st => Sys2Proof.Machine.execUmulh d a b q st s
  | .umulhU d a b q st => Sys2Proof.Machine.execUmulhU d a b q st s
  | .uadd64 d a b q st => Sys2Proof.Machine.execUadd64 d a b q st s
  | .uand d a b q st => Sys2Proof.Machine.execUand d a b q st s
  | .uor d a b q st => Sys2Proof.Machine.execUor d a b q st s
  | .uxor d a b q st => Sys2Proof.Machine.execUxor d a b q st s
  | .uandi d a im st => Sys2Proof.Machine.execUandi d a im st s
  | .uori d a im st => Sys2Proof.Machine.execUori d a im st s
  | .ushl d a b q st => Sys2Proof.Machine.execUshl d a b q st s
  | .ushr d a b q st => Sys2Proof.Machine.execUshr d a b q st s
  | .usar d a b q st => Sys2Proof.Machine.execUsar d a b q st s
  | .ushli d a im st => Sys2Proof.Machine.execUshli d a im st s
  | .ushri d a im st => Sys2Proof.Machine.execUshri d a im st s
  | .umin d a b q st => Sys2Proof.Machine.execUmin d a b q st s
  | .uminU d a b q st => Sys2Proof.Machine.execUminU d a b q st s
  | .umax d a b q st => Sys2Proof.Machine.execUmax d a b q st s
  | .umaxU d a b q st => Sys2Proof.Machine.execUmaxU d a b q st s
  | .usetp d a b c q st => Sys2Proof.Machine.execUsetp d a b c q st s
  | .usel d a b m q st => Sys2Proof.Machine.execUsel d a b m q st s
  | .umov d a q st => Sys2Proof.Machine.execUmov d a q st s
  | .umovi d im st => Sys2Proof.Machine.execUmovi d im st s
  | .ului d im st => Sys2Proof.Machine.execUlui d im st s
  | .upopc d a q st => Sys2Proof.Machine.execUpopc d a q st s
  | .uclz d a q st => Sys2Proof.Machine.execUclz d a q st s
  | .ubfe d a b m q st => Sys2Proof.Machine.execUbfe d a b m q st s
  | .ubfi d a b c => Sys2Proof.Machine.execUbfi d a b c s
  | .umad d a b c => Sys2Proof.Machine.execUmad d a b c s
  | .uldW d a im st => Sys2Proof.Machine.execUldW d a im st s
  | .uldD d a im st => Sys2Proof.Machine.execUldD d a im st s
  | .ustW d a im st => Sys2Proof.Machine.execUstW d a im st s
  | .ustD d a im st => Sys2Proof.Machine.execUstD d a im st s
  | .rfal d v p m st => Sys2Proof.Machine.execRfal d v p m st s
  | .rdl d v b st => Sys2Proof.Machine.execRdl d v b st s
  | .vlane d v p m st => Sys2Proof.Machine.execVlane d v p m st s
  | .uldH d a im st => Sys2Proof.Machine.execUldH d a im st s
  | .ustH d a im st => Sys2Proof.Machine.execUstH d a im st s
  | .uldB d a im st => Sys2Proof.Machine.execUldB d a im st s
  | .ustB d a im st => Sys2Proof.Machine.execUstB d a im st s
  | .bra q o => Sys2Proof.Machine.execBra q o s
  | .brp p o h => Sys2Proof.Machine.execBrp p o h s
  | .call f o => Sys2Proof.Machine.execCall f o s
  | .ret q st => Sys2Proof.Machine.execRet q st s
  | .grow f => Sys2Proof.Machine.execGrow f s
  | .shrink q st => Sys2Proof.Machine.execShrink q st s
  | .ovld d im st => Sys2Proof.Machine.execOvld d im st s
  | .ovcall q o => Sys2Proof.Machine.execOvcall q o s
  | .ovret q st => Sys2Proof.Machine.execOvret q st s
  | .exit q st => Sys2Proof.Machine.execExit q st s
  | .trap im st => Sys2Proof.Machine.execTrap im st s
  | .bkpt im st => Sys2Proof.Machine.execBkpt im st s
  | .yield q st => Sys2Proof.Machine.execYield q st s
  | .brx a q st => Sys2Proof.Machine.execBrx a q st s
  | .callx a f q st => Sys2Proof.Machine.execCallx a f q st s
  | .srd k d r st => Sys2Proof.Machine.execSrd k d r st s
  | .swr d r st => Sys2Proof.Machine.execSwr d r st s
  | .tagr d v m st => Sys2Proof.Machine.execTagr d v m st s
  | .barInit d a b q st => Sys2Proof.Machine.execBarInit d a b q st s
  | .barArv d a c q st => Sys2Proof.Machine.execBarArv d a c q st s
  | .barWait d a c q st => Sys2Proof.Machine.execBarWait d a c q st s
  | .barArw d a c q st => Sys2Proof.Machine.execBarArw d a c q st s
  | .barTest d a j c q st => Sys2Proof.Machine.execBarTest d a j c q st s
  | .racq d a q st => Sys2Proof.Machine.execRacq d a q st s
  | .rpub d a b q st => Sys2Proof.Machine.execRpub d a b q st s
  | .rtake d a q st => Sys2Proof.Machine.execRtake d a q st s
  | .rrel d a q st => Sys2Proof.Machine.execRrel d a q st s
  | .waitc c n st => Sys2Proof.Machine.execWaitc c n st s
  | .fence c q st => Sys2Proof.Machine.execFence c q st s
  | .fencer q st => Sys2Proof.Machine.execFencer q st s
  | .mcas d a q st => Sys2Proof.Machine.execMcas d a q st s
  | .atomu d a b o sc => Sys2Proof.Machine.execAtomu d a b o sc s
  | .casu d a b c sc => Sys2Proof.Machine.execCasu d a b c sc s
  | .copy a b c n => Sys2Proof.Machine.execCopy a b c n s
  | .copy2d a b c n => Sys2Proof.Machine.execCopy2d a b c n s
  | .gather a b c n => Sys2Proof.Machine.execGather a b c n s
  | .scatter a b c n => Sys2Proof.Machine.execScatter a b c n s
  | .fill a b c => Sys2Proof.Machine.execFill a b c s
  | .copyr a b c n => Sys2Proof.Machine.execCopyr a b c n s
  | .mma z a b y im j => Sys2Proof.Machine.execMma z a b y im j s
  | .hadt z y h n => Sys2Proof.Machine.execHadt z y h n s
  | .qtile a b y m u t => Sys2Proof.Machine.execQtile a b y m u t s
  | .zld z a im => Sys2Proof.Machine.execZld z a im s
  | .zst a y => Sys2Proof.Machine.execZst a y s
  | .zsta a y => Sys2Proof.Machine.execZsta a y s
  | .zzero z im => Sys2Proof.Machine.execZzero z im s
  | .zcvt z y r c => Sys2Proof.Machine.execZcvt z y r c s
  | .zmov z y t => Sys2Proof.Machine.execZmov z y t s
  | .tpref a => Sys2Proof.Machine.execTpref a s
  | .launch d a q st => Sys2Proof.Machine.execLaunch d a q st s
  | .cancel d a l q st => Sys2Proof.Machine.execCancel d a l q st s
  | .ccwait d a m q st => Sys2Proof.Machine.execCcwait d a m q st s
  | .alloc d a b q st => Sys2Proof.Machine.execAlloc d a b q st s
  | .free d a b q st => Sys2Proof.Machine.execFree d a b q st s
  | .dbell d a b q st => Sys2Proof.Machine.execDbell d a b q st s
  | .cctl a b m q st => Sys2Proof.Machine.execCctl a b m q st s
  | .submissionEntryRead => Sys2Proof.Machine.execSubmissionEntryRead s
  | .pendingLaunchAdmit => Sys2Proof.Machine.execPendingLaunchAdmit s
  | .heldLaunchRecheck => Sys2Proof.Machine.execHeldLaunchRecheck s
  | .placementOpportunity => Sys2Proof.Machine.execPlacementOpportunity s
  | .overlayPlacementLoadDone => Sys2Proof.Machine.execOverlayPlacementLoadDone s
  | .issueCycle => Sys2Proof.Machine.execIssueCycle s
  | .swapidleExpiry => Sys2Proof.Machine.execSwapidleExpiry s
  | .groupResume => Sys2Proof.Machine.execGroupResume s
  | .registerLineLoad => Sys2Proof.Machine.execRegisterLineLoad s
  | .muIdleEntry => Sys2Proof.Machine.execMuIdleEntry s
  | .muLeaveIdleStart => Sys2Proof.Machine.execMuLeaveIdleStart s
  | .muLeaveIdleDone => Sys2Proof.Machine.execMuLeaveIdleDone s
  | .activityForecastWrite => Sys2Proof.Machine.execActivityForecastWrite s
  | .groupEnd => Sys2Proof.Machine.execGroupEnd s
  | .unitRetire => Sys2Proof.Machine.execUnitRetire s
  | .checkPhaseDone => Sys2Proof.Machine.execCheckPhaseDone s
  | .loadDataReturn => Sys2Proof.Machine.execLoadDataReturn s
  | .copyEngineOpComplete => Sys2Proof.Machine.execCopyEngineOpComplete s
  | .copyrSlotAcquire => Sys2Proof.Machine.execCopyrSlotAcquire s
  | .microTileComplete => Sys2Proof.Machine.execMicroTileComplete s
  | .matrixOpComplete => Sys2Proof.Machine.execMatrixOpComplete s
  | .epuLaneDecided => Sys2Proof.Machine.execEpuLaneDecided s
  | .geometricComplete => Sys2Proof.Machine.execGeometricComplete s
  | .epuReset => Sys2Proof.Machine.execEpuReset s
  | .muHangReset => Sys2Proof.Machine.execMuHangReset s
  | .muResetEnd => Sys2Proof.Machine.execMuResetEnd s
  | .mcasLocksComplete => Sys2Proof.Machine.execMcasLocksComplete s
  | .waitforWalk => Sys2Proof.Machine.execWaitforWalk s
  | .remoteRequest => Sys2Proof.Machine.execRemoteRequest s
  | .remoteReply => Sys2Proof.Machine.execRemoteReply s
  | .remoteStoreAck => Sys2Proof.Machine.execRemoteStoreAck s
  | .faultTicketResponse => Sys2Proof.Machine.execFaultTicketResponse s
  | .ticketTableEntry => Sys2Proof.Machine.execTicketTableEntry s
  | .replayNotice => Sys2Proof.Machine.execReplayNotice s
  | .tktdone => Sys2Proof.Machine.execTktdone s
  | .markerReceived => Sys2Proof.Machine.execMarkerReceived s
  | .flaggedStorePerform => Sys2Proof.Machine.execFlaggedStorePerform s
  | .markerReport => Sys2Proof.Machine.execMarkerReport s
  | .esctimerExpiry => Sys2Proof.Machine.execEsctimerExpiry s
  | .planeDead => Sys2Proof.Machine.execPlaneDead s
  | .planemapWrite => Sys2Proof.Machine.execPlanemapWrite s
  | .planemapChangeApply => Sys2Proof.Machine.execPlanemapChangeApply s
  | .podmaskWrite => Sys2Proof.Machine.execPodmaskWrite s
  | .msiArrival => Sys2Proof.Machine.execMsiArrival s
  | .arrivalQueueApply => Sys2Proof.Machine.execArrivalQueueApply s
  | .notifyArrival => Sys2Proof.Machine.execNotifyArrival s
  | .arrcmdBind => Sys2Proof.Machine.execArrcmdBind s
  | .arrcmdUnbind => Sys2Proof.Machine.execArrcmdUnbind s
  | .ntbMailboxWrite => Sys2Proof.Machine.execNtbMailboxWrite s
  | .ntbInboundAccess => Sys2Proof.Machine.execNtbInboundAccess s
  | .doorbellMark => Sys2Proof.Machine.execDoorbellMark s
  | .tailWriteFailed => Sys2Proof.Machine.execTailWriteFailed s
  | .dqEnable => Sys2Proof.Machine.execDqEnable s
  | .atsTranslationRequest => Sys2Proof.Machine.execAtsTranslationRequest s
  | .endpointMemoryRequest => Sys2Proof.Machine.execEndpointMemoryRequest s
  | .pageRequest => Sys2Proof.Machine.execPageRequest s
  | .prgresp => Sys2Proof.Machine.execPrgresp s
  | .atsInvalidateCompletion => Sys2Proof.Machine.execAtsInvalidateCompletion s
  | .atsInvalidateTimeout => Sys2Proof.Machine.execAtsInvalidateTimeout s
  | .dpcContainment => Sys2Proof.Machine.execDpcContainment s
  | .invalidatePage => Sys2Proof.Machine.execInvalidatePage s
  | .invalidateRange => Sys2Proof.Machine.execInvalidateRange s
  | .invalidateJob => Sys2Proof.Machine.execInvalidateJob s
  | .invalidateAll => Sys2Proof.Machine.execInvalidateAll s
  | .invalidationComplete => Sys2Proof.Machine.execInvalidationComplete s
  | .migrationStart => Sys2Proof.Machine.execMigrationStart s
  | .migrationDrainDone => Sys2Proof.Machine.execMigrationDrainDone s
  | .migrationCopyDone => Sys2Proof.Machine.execMigrationCopyDone s
  | .groupcmdReissue => Sys2Proof.Machine.execGroupcmdReissue s
  | .groupcmdSkip => Sys2Proof.Machine.execGroupcmdSkip s
  | .groupcmdLose => Sys2Proof.Machine.execGroupcmdLose s
  | .groupcmdReplay => Sys2Proof.Machine.execGroupcmdReplay s
  | .groupcmdStop => Sys2Proof.Machine.execGroupcmdStop s
  | .groupcmdRun => Sys2Proof.Machine.execGroupcmdRun s
  | .svccmdRetry => Sys2Proof.Machine.execSvccmdRetry s
  | .svccmdFail => Sys2Proof.Machine.execSvccmdFail s
  | .deviceRingRecordWrite => Sys2Proof.Machine.execDeviceRingRecordWrite s
  | .tcompl => Sys2Proof.Machine.execTcompl s
  | .weightSwitch => Sys2Proof.Machine.execWeightSwitch s
  | .weightStoreInstall => Sys2Proof.Machine.execWeightStoreInstall s
  | .weightInstallDone => Sys2Proof.Machine.execWeightInstallDone s
  | .hrateTargetWrite => Sys2Proof.Machine.execHrateTargetWrite s
  | .hrateSwitchDone => Sys2Proof.Machine.execHrateSwitchDone s
  | .mucapWrite => Sys2Proof.Machine.execMucapWrite s
  | .powerOn => Sys2Proof.Machine.execPowerOn s
  | .podElection => Sys2Proof.Machine.execPodElection s
  | .chunkReceived => Sys2Proof.Machine.execChunkReceived s
  | .chipAssignment => Sys2Proof.Machine.execChipAssignment s
  | .leaderContact => Sys2Proof.Machine.execLeaderContact s
  | .keepaliveSend => Sys2Proof.Machine.execKeepaliveSend s
  | .upstreamSilent => Sys2Proof.Machine.execUpstreamSilent s
  | .correctedError => Sys2Proof.Machine.execCorrectedError s
  | .uncorrectableError => Sys2Proof.Machine.execUncorrectableError s
  | .scrubPass => Sys2Proof.Machine.execScrubPass s
  | .coreFailed => Sys2Proof.Machine.execCoreFailed s
  | .l2SliceFailed => Sys2Proof.Machine.execL2SliceFailed s
  | .spdmMeasurementRequest => Sys2Proof.Machine.execSpdmMeasurementRequest s
  | .hartMemoryAccess => Sys2Proof.Machine.execHartMemoryAccess s
  | .registerWrite => Sys2Proof.Machine.execRegisterWrite s
  | .accessTakesEffect => Sys2Proof.Machine.execAccessTakesEffect s
  | .heapDescriptorLocked => Sys2Proof.Machine.execHeapDescriptorLocked s
  | .epuResetEnd => Sys2Proof.Machine.execEpuResetEnd s
  | .l2SpareTakeoverDone => Sys2Proof.Machine.execL2SpareTakeoverDone s
  | .spareCoreDrainDone => Sys2Proof.Machine.execSpareCoreDrainDone s
  | .markerReportArrival => Sys2Proof.Machine.execMarkerReportArrival s
  | .portLinkUp => Sys2Proof.Machine.execPortLinkUp s
  | .dpcRelease => Sys2Proof.Machine.execDpcRelease s
  | .powerLoss => Sys2Proof.Machine.execPowerLoss s
  | .keepaliveReceived => Sys2Proof.Machine.execKeepaliveReceived s
  | .heldChunkReport => Sys2Proof.Machine.execHeldChunkReport s
  | .chunkRerequest => Sys2Proof.Machine.execChunkRerequest s
  | .recoveryImageAccept => Sys2Proof.Machine.execRecoveryImageAccept s

end Sys2Proof.Machine
end

