-- ==== Sys2Proof/Machine/Step.lean ====
section
/-! DEFINITION. One step of the machine: the instruction at issue, the next step of the agenda, or a step the device takes by itself. -/

namespace Sys2Proof.Machine

/-- The step of the group at issue: its instruction is fetched and executed, or the fetch stops it. -/
def issueStep (c : Ctx) : Host.Outcome State Fault Refusal :=
  match c.fetch with
  | .instr i => exec i c.s
  | .loading => .next c.withdrawn
  | .trap t pc => .next (groupStop c.s c.key c.slot pc t)

/-- What the machine does next, with the number of the step set. -/
def advance (s : State) : Host.Outcome State Fault Refusal :=
  match s.issue with
  | some _ =>
    (match issuing s with
     | some c => issueStep c
     | none => .next { s with issue := none })
  | none =>
    match s.agenda with
    | (i, x) :: t => if s.heldBack i then .next { s with agenda := t } else exec i { s with agenda := t, input := x }
    | [] =>
      match s.choose with
      | some (i, x) => exec i { s with input := x, fresh := s.fresh + 1 }
      | none => .next { s with clock := s.clock + 1 }

/-- ONE STEP: the steps are numbered, since their order is the order of all stores (09 R202). -/
def step (s : State) : Host.Outcome State Fault Refusal := advance s.ticked

/-- The state with the instruction whose word is `w` where the next fetch finds it: a group of a role that may issue it stands at
issue, at word 0 of overlay 0, and slot 0 of its core holds the word. -/
def State.withFetchWord (s : State) (_nbits w : Nat) : State :=
  { s with
    issue := some { key := groupKey 0 0, slot := false }
    agenda := []
    groups := Assoc.put (groupKey 0 0) (loadedGroup (roleFor w)) s.groups
    slots := Assoc.put (slotKey 0 0) { job := 1, code := 0, ovl := 0, addr := 0, size := 4, bytes := slotBytes w } s.slots }

end Sys2Proof.Machine
end

