-- ==== Sys2Proof/Safety.lean ====
section
/-! DEFINITION. The terms in which claims are stated: when an instruction runs, what it leaves unchanged, and the invariants of the machine. -/

namespace Sys2Proof.Machine

/-! ### Running an instruction -/

/-- Instruction `i` stands at issue in `s`, as `c` describes it, and runs: its fields and the group's role are legal, the scoreboard lets it
issue and nothing else holds it back, its uniform guard holds, and no register it reads stalls it, carries an unassigned tag or awaits
poisoned data. -/
structure Ready (i : Instr) (s : State) (c : Ctx) : Prop where
  issuing : issuing s = some c
  legal : i.wellFormed = true
  role : c.g.role ∈ (shapeOf c.g i).roles
  free : c.scoreboard (shapeOf c.g i) = true
  go : c.holdsBack i = false
  on : c.guardOn (shapeOf c.g i).guard = true
  clear : c.sourceTraps (shapeOf c.g i) = []

/-- The tags of the `n` registers of a lane operand are among the accepted ones; a broadcast operand has none. -/
def Ctx.takes (c : Ctx) (x : BitVec 6) (n : Nat) (ok : BitVec 5 → Bool) : Prop :=
  ∀ i < n, ∀ t, c.tagOf x i = some t → ok t = true

/-- The lanes that instruction `i` acts on: the live lanes of its fragment whose guard bit is set. -/
def Ctx.acting (c : Ctx) (i : Instr) : Mask := c.active (shapeOf c.g i).guard

/-! ### Frames -/

/-- After the instruction of `c`, the machine `t` is `s` with the group at issue replaced by `g'`: the issue is over and a point of
free choice has passed; memory and all else are unchanged. -/
def Only (c : Ctx) (s t : State) (g' : Group) : Prop :=
  t = { s with groups := Assoc.put c.key g' s.groups, issue := none, fresh := s.fresh + 1 } ∧ ∀ a, t.byte a = s.byte a

/-- The registers that an instruction may change: window registers, uniform registers, predicates, uniform predicates. -/
structure Changed where
  v : List Nat := []
  k : List Nat := []
  p : List Nat := []
  q : List Nat := []
  /-- Float flags and the first-NaN record. -/
  float : Bool := false

/-- What an instruction that only changes registers leaves in its group: every other register, tag and float flag, and every other field but the
fragment's program counter and what an issue keeps (the stall count, the slot that issued last, results in flight, the poison marks
of registers written, the mark on a geometric instruction in flight) and the presence of the lines it wrote. -/
structure Keeps (c : Ctx) (g' : Group) (ch : Changed) : Prop where
  lines : ∀ n, (∀ x ∈ ch.v, n % 256 ≠ (c.g.lbase + x) % 256) → g'.line n = c.g.line n
  tags : ∀ n, (∀ x ∈ ch.v, n ≠ c.g.lbase + x) → g'.tagByte n = c.g.tagByte n
  k : ∀ n, n ∉ ch.k → g'.kreg n = c.g.kreg n
  p : ∀ n, n ∉ ch.p → g'.preg n = c.g.preg n
  q : ∀ n, n ∉ ch.q → g'.qbit n = c.g.qbit n
  float : ch.float = false → g'.fexc = c.g.fexc ∧ g'.fnan = c.g.fnan
  rest : g' = { c.g with
    fexc := g'.fexc, fnan := g'.fnan
    lines := g'.lines, ltags := g'.ltags, k := g'.k, p := g'.p, q := g'.q, live0 := g'.live0, live1 := g'.live1
    readyAt := g'.readyAt, lastSlot := g'.lastSlot, issues := g'.issues, hazards := g'.hazards, frec := g'.frec, imgPoison := g'.imgPoison
    geoOp := g'.geoOp, absent := g'.absent }
  present : ∀ n, (∀ x ∈ ch.v, n % 256 ≠ (c.g.lbase + x) % 256) → g'.present (.v n) = c.g.present (.v n)
  record : g'.frec = { c.g.frec with ppoisv := g'.frec.ppoisv, ppoisk := g'.frec.ppoisk }
  other : g'.live (!c.slot) = c.g.live (!c.slot)

/-- The issuing fragment of a group stands at the next word, and the group may issue again when the stall count has passed. -/
def Advanced (c : Ctx) (g' : Group) (stall : Nat) : Prop :=
  g'.live c.slot = { c.f with pc := c.f.pc.next } ∧ g'.readyAt = c.now + 1 + stall

/-- A result of a lane instruction: window register, value in each lane, tag. -/
abbrev LaneWrite := Nat × (Fin 32 → Word) × BitVec 5

/-- Instruction `i`, where it is ready and `ok` holds, completes: in the acting lanes its destination registers take the values
stated, in the other lanes they keep theirs, their tags are as stated, and nothing else changes. -/
def WritesLanes (i : Instr) (ok : Ctx → Prop) (rs : Ctx → List LaneWrite) : Prop :=
  ∀ s c, Ready i s c → ok c →
    ∃ t g', exec i s = .next t ∧ Only c s t g' ∧ Advanced c g' (shapeOf c.g i).stall ∧
      Keeps c g' { v := (rs c).map (fun r => r.1) } ∧
      ∀ r ∈ rs c, g'.tagByte (c.g.lbase + r.1) = r.2.2.zeroExtend 8 ∧
        ∀ l : Fin 32, (g'.line (c.g.lbase + r.1))[l] =
          if (c.acting i).getLsbD l.val then r.2.1 l else (c.g.line (c.g.lbase + r.1))[l]

/-- Instruction `i`, where it is ready, completes: the uniform registers listed take the values stated and nothing else changes. -/
def WritesUniform (i : Instr) (rs : Ctx → List (Nat × Word)) : Prop :=
  ∀ s c, Ready i s c →
    ∃ t g', exec i s = .next t ∧ Only c s t g' ∧ Advanced c g' (shapeOf c.g i).stall ∧
      Keeps c g' { k := (rs c).map (fun r => r.1) } ∧ ∀ r ∈ rs c, g'.kreg r.1 = r.2

/-- Instruction `i`, where it is ready and `ok` holds, completes: predicate `p` takes each acting lane's truth and keeps its other
bits, and nothing else changes; code 7 names no predicate and writes nothing. -/
def WritesPredicate (i : Instr) (p : Nat) (ok : Ctx → Prop) (f : Ctx → Fin 32 → Bool) : Prop :=
  ∀ s c, Ready i s c → ok c →
    ∃ t g', exec i s = .next t ∧ Only c s t g' ∧ Advanced c g' (shapeOf c.g i).stall ∧ Keeps c g' { p := [p] } ∧
      (p ≠ 7 → ∀ l : Fin 32, (g'.preg p).getLsbD l.val =
        if (c.acting i).getLsbD l.val then f c l else (c.g.preg p).getLsbD l.val) ∧
      (p = 7 → ∀ n, g'.preg n = c.g.preg n)

/-! ### Runs -/

/-- The states of a run: each is the next of the one before. -/
def IsRun (r : Nat → State) : Prop := ∀ n, step (r n) = .next (r (n + 1))

/-- The device leaves no step untaken that stays possible: from every moment on, a step that is a candidate whenever the machine chooses is
taken, and the machine chooses again and again. The progress that 02 R48 states is that of such runs.
DESIGN CHOICE: log 6. -/
def Fair (r : Nat → State) : Prop :=
  ∀ n x, (∀ m, n ≤ m → (r m).issue = none → (r m).agenda = [] → x ∈ (r m).ticked.candidates) →
    ∃ m, n ≤ m ∧ (r m).issue = none ∧ (r m).agenda = [] ∧ (r m).ticked.choose = some x

end Sys2Proof.Machine
end

