-- ==== Sys2Proof/Certificates/Slice0/Obligations.lean ====
section
/-! DEFINITION. The statements about the L480 model, for the provers. -/

open Sys2Proof Sys2Proof.Machine

namespace Sys2Proof.Claims

/-- A lane instruction of one source: any lane value `f` of the source's, under tags `ok`, with the result tag `tag`. -/
def Lane1 (i : Instr) (d a : BitVec 6) (ok : BitVec 5 → Bool) (tag : Ctx → BitVec 5) (f : Word → Word) : Prop :=
  WritesLanes i (fun c => c.takes a 1 ok) (fun c => [(d.toNat, fun l => f (c.val a)[l], tag c)])

/-- A lane instruction of two sources. -/
def Lane2 (i : Instr) (d a b : BitVec 6) (ok : BitVec 5 → Bool) (tag : Ctx → BitVec 5) (f : Word → Word → Word) : Prop :=
  WritesLanes i (fun c => c.takes a 1 ok ∧ c.takes b 1 ok) (fun c => [(d.toNat, fun l => f (c.val a)[l] (c.val b)[l], tag c)])

/-- A lane instruction of two sources and its old destination. -/
def Lane3 (i : Instr) (d a b : BitVec 6) (ok : BitVec 5 → Bool) (tag : Ctx → BitVec 5) (f : Word → Word → Word → Word) : Prop :=
  WritesLanes i (fun c => c.takes a 1 ok ∧ c.takes b 1 ok ∧ c.takes d 1 ok)
    (fun c => [(d.toNat, fun l => f (c.val d)[l] (c.val a)[l] (c.val b)[l], tag c)])

/-- The tags that integer arithmetic accepts (16 R399): RAW, I32, U32. -/
def integerTag (t : BitVec 5) : Bool := decide (t = 0x00 ∨ t = 0x01 ∨ t = 0x02)

/-- The 20 assigned tags. -/
def assignedTag (t : BitVec 5) : Bool := decide (t.toNat ≤ 0x13)

/-- Result tags: fixed; or U32 when vA is a lane register tagged U32 and I32 otherwise (the "A" rule of 16 R399). -/
def tagIs (t : BitVec 5) (_ : Ctx) : BitVec 5 := t
def tagOfA (a : BitVec 6) (c : Ctx) : BitVec 5 := if c.tagOf a = some 0x02 then 0x02 else 0x01

/-- The high 32 bits of an exact product. -/
def high (x : Int) : Word := BitVec.ofInt 32 (x / 2 ^ 32)

/-- A lane's 64-bit value of a register pair, the low register first. -/
def pairOf (c : Ctx) (x : BitVec 6) (l : Fin 32) : Nat := ((c.val x 0)[l]).toNat + 2 ^ 32 * ((c.val x 1)[l]).toNat

/-- The two results of a 64-bit value per lane. -/
def pairWrites (d : BitVec 6) (f : Fin 32 → Nat) : List LaneWrite :=
  [(d.toNat, fun l => BitVec.ofNat 32 (f l), 0x00), (d.toNat + 1, fun l => BitVec.ofNat 32 (f l / 2 ^ 32), 0x00)]

/-- Shifts by an amount of 0 to 255 (18 R448). -/
def shiftLeft (a : Word) (n : Nat) : Word := BitVec.ofNat 32 (a.toNat * 2 ^ n)
def shiftRight (a : Word) (n : Nat) : Word := BitVec.ofNat 32 (a.toNat / 2 ^ n)
def shiftSigned (a : Word) (n : Nat) : Word := BitVec.ofInt 32 (a.toInt / 2 ^ n)

end Sys2Proof.Claims

open Sys2Proof.Claims

/-- 16 R400: in each acting lane the integer instructions write the table's result, with its tag. -/
def Sys2Proof.Claims.LaneIntegerResults : Prop :=
  ∀ (d a b : BitVec 6) (g st : BitVec 3),
    Lane2 (.iadd d a b g st) d a b integerTag (tagOfA a) (fun x y => x + y) ∧
    Lane2 (.isub d a b g st) d a b integerTag (tagOfA a) (fun x y => x - y) ∧
    Lane2 (.imul d a b g st) d a b integerTag (tagOfA a) (fun x y => x * y) ∧
    Lane2 (.imulh d a b g st) d a b integerTag (tagIs 0x01) (fun x y => high (x.toInt * y.toInt)) ∧
    Lane2 (.imulhU d a b g st) d a b integerTag (tagIs 0x02) (fun x y => high (x.toNat * y.toNat : Nat)) ∧
    Lane3 (.imad d a b g st) d a b integerTag (tagOfA a) (fun z x y => x * y + z) ∧
    Lane2 (.imin d a b g st) d a b integerTag (tagIs 0x01) (fun x y => BitVec.ofInt 32 (min x.toInt y.toInt)) ∧
    Lane2 (.iminU d a b g st) d a b integerTag (tagIs 0x02) (fun x y => BitVec.ofNat 32 (min x.toNat y.toNat)) ∧
    Lane2 (.imax d a b g st) d a b integerTag (tagIs 0x01) (fun x y => BitVec.ofInt 32 (max x.toInt y.toInt)) ∧
    Lane2 (.imaxU d a b g st) d a b integerTag (tagIs 0x02) (fun x y => BitVec.ofNat 32 (max x.toNat y.toNat)) ∧
    Lane1 (.iabs d a g st) d a integerTag (tagIs 0x01) (fun x => BitVec.ofInt 32 |x.toInt|) ∧
    ∀ im, Lane1 (.iaddi d a im st) d a integerTag (tagOfA a) (fun x => x + im.signExtend 32)

/-- 16 R402: saturating sum and difference; the tag of vA selects unsigned or signed clamping. -/
def Sys2Proof.Claims.LaneSaturation : Prop :=
  ∀ (d a b : BitVec 6) (g st : BitVec 3),
    WritesLanes (.iaddSat d a b g st) (fun c => c.takes a 1 integerTag ∧ c.takes b 1 integerTag)
      (fun c => [(d.toNat, fun l =>
        if c.tagOf a = some 0x02 then BitVec.ofNat 32 (min (2 ^ 32 - 1) (((c.val a)[l]).toNat + ((c.val b)[l]).toNat))
        else BitVec.ofInt 32 (max (-(2 ^ 31)) (min (2 ^ 31 - 1) (((c.val a)[l]).toInt + ((c.val b)[l]).toInt))), tagOfA a c)]) ∧
    WritesLanes (.isubSat d a b g st) (fun c => c.takes a 1 integerTag ∧ c.takes b 1 integerTag)
      (fun c => [(d.toNat, fun l =>
        if c.tagOf a = some 0x02 then BitVec.ofNat 32 (((c.val a)[l]).toNat - ((c.val b)[l]).toNat)
        else BitVec.ofInt 32 (max (-(2 ^ 31)) (min (2 ^ 31 - 1) (((c.val a)[l]).toInt - ((c.val b)[l]).toInt))), tagOfA a c)])

/-- 15 R337, 17 R416: 64-bit sums of register pairs. -/
def Sys2Proof.Claims.LaneAddresses : Prop :=
  ∀ (d a b : BitVec 6) (g st : BitVec 3),
    WritesLanes (.add64 d a b g st) (fun c => c.takes a 2 integerTag ∧ c.takes b 2 integerTag)
      (fun c => pairWrites d (fun l => pairOf c a l + pairOf c b l)) ∧
    WritesLanes (.lea d a b g st) (fun c => c.takes a 2 integerTag ∧ c.takes b 1 integerTag)
      (fun c => pairWrites d (fun l => pairOf c a l + 4 * ((c.val b)[l]).toNat)) ∧
    WritesLanes (.leaD d a b g st) (fun c => c.takes a 2 integerTag ∧ c.takes b 1 integerTag)
      (fun c => pairWrites d (fun l => pairOf c a l + 8 * ((c.val b)[l]).toNat))

/-- 15 R336, R339 to R341: bitwise logic. -/
def Sys2Proof.Claims.LaneLogic : Prop :=
  ∀ (d a b : BitVec 6) (g st : BitVec 3),
    Lane2 (.and d a b g st) d a b assignedTag (tagIs 0x00) (fun x y => x &&& y) ∧
    Lane2 (.or d a b g st) d a b assignedTag (tagIs 0x00) (fun x y => x ||| y) ∧
    Lane2 (.xor d a b g st) d a b assignedTag (tagIs 0x00) (fun x y => x ^^^ y) ∧
    Lane1 (.not d a g st) d a assignedTag (tagIs 0x00) (fun x => ~~~x) ∧
    (∀ im, Lane1 (.andi d a im st) d a assignedTag (tagIs 0x00) (fun x => x &&& im.zeroExtend 32)) ∧
    (∀ im, Lane1 (.ori d a im st) d a assignedTag (tagIs 0x00) (fun x => x ||| im.zeroExtend 32)) ∧
    (∀ im, Lane1 (.xori d a im st) d a assignedTag (tagIs 0x00) (fun x => x ^^^ im.zeroExtend 32))

/-- 18 R448: shifts by bits [7:0] of the amount, or by the immediate. -/
def Sys2Proof.Claims.LaneShifts : Prop :=
  ∀ (d a b : BitVec 6) (g st : BitVec 3) (im : BitVec 5),
    Lane2 (.shl d a b g st) d a b assignedTag (tagIs 0x00) (fun x y => shiftLeft x (y.toNat % 256)) ∧
    Lane2 (.shr d a b g st) d a b assignedTag (tagIs 0x00) (fun x y => shiftRight x (y.toNat % 256)) ∧
    Lane2 (.sar d a b g st) d a b assignedTag (tagIs 0x00) (fun x y => shiftSigned x (y.toNat % 256)) ∧
    Lane1 (.shli d a im st) d a assignedTag (tagIs 0x00) (fun x => shiftLeft x im.toNat) ∧
    Lane1 (.shri d a im st) d a assignedTag (tagIs 0x00) (fun x => shiftRight x im.toNat) ∧
    Lane1 (.sari d a im st) d a assignedTag (tagIs 0x00) (fun x => shiftSigned x im.toNat)

namespace Sys2Proof.Claims

/-- Position, taken length and mask of the bit field that `y` names (15 R347, R348). -/
def fieldAt (y : Word) : Nat := y.toNat % 32
def fieldTaken (y : Word) : Nat := min (min (y.toNat / 2 ^ 8 % 64) 32) (32 - fieldAt y)
def fieldBits (x y : Word) : Nat := x.toNat / 2 ^ fieldAt y % 2 ^ fieldTaken y
def fieldMask (y : Word) : Word := BitVec.ofNat 32 ((2 ^ fieldTaken y - 1) * 2 ^ fieldAt y)

/-- One result byte of PSWZ (17 R438): the pool byte that selector `c` names, after the selector's operation. -/
def selected (a b : Word) (c : Byte) : Byte :=
  let byte := (b ++ a).extractLsb' (8 * (c.toNat % 8)) 8
  match c.toNat / 8 % 4 with
  | 0 => byte
  | 1 => 0
  | 2 => if byte.msb then 0xFF else 0
  | _ => byte.reverse

/-- PSWZ: byte j of the selector chooses result byte j. -/
def swizzled (sel a b : Word) : Word :=
  selected a b (sel.extractLsb' 24 8) ++ selected a b (sel.extractLsb' 16 8) ++ selected a b (sel.extractLsb' 8 8) ++
    selected a b (sel.extractLsb' 0 8)

/-- Element `i` of `n` bits, unsigned or signed. -/
def element (x : Word) (i n : Nat) (unsigned : Prop) [Decidable unsigned] : Int :=
  if unsigned then ((x.extractLsb' (n * i) n).toNat : Int) else (x.extractLsb' (n * i) n).toInt

/-- IDOT4 and IDOT8 (16 R405) of `cnt` elements of `n` bits, the signed tag and RAW read as signed. -/
def Dot (i : Instr) (d a b : BitVec 6) (cnt n : Nat) (sgn uns : BitVec 5) : Prop :=
  WritesLanes i
    (fun c => c.takes a 1 (fun t => decide (t = 0x00 ∨ t = sgn ∨ t = uns)) ∧
      c.takes b 1 (fun t => decide (t = 0x00 ∨ t = sgn ∨ t = uns)) ∧ c.takes d 1 integerTag)
    (fun c => [(d.toNat, fun l => (c.val d)[l] + BitVec.ofInt 32 (((List.range cnt).map (fun k =>
      element (c.val a)[l] k n (c.tagOf a = some uns) * element (c.val b)[l] k n (c.tagOf b = some uns))).sum), 0x01)])

/-- The lane that SLANE reads for lane `l` (18 R452), as an integer, in a fragment whose lanes ascend in `act`. -/
def laneNamed (m : BitVec 3) (act : List Nat) (l : Nat) (b : Word) : Int :=
  if m = 0 then (b.toNat % 32 : Nat)
  else if m = 1 then (l : Int) + (b.extractLsb' 0 6).toInt
  else if m = 2 then (act.getD ((act.idxOf l + b.toNat % 32) % act.length) l : Nat)
  else (l ^^^ (b.toNat % 32) : Nat)

/-- The comparison that a CMP code names, on two values of `n` bits (14 R323). -/
def compared (cc : BitVec 3) {n : Nat} (x y : BitVec n) : Bool :=
  if cc = 0 then decide (x = y) else if cc = 1 then decide (x ≠ y) else if cc = 2 then decide (x.toInt < y.toInt)
  else if cc = 3 then decide (x.toInt ≤ y.toInt) else if cc = 4 then decide (y.toInt < x.toInt)
  else if cc = 5 then decide (y.toInt ≤ x.toInt) else if cc = 6 then decide (x.toNat < y.toNat) else decide (y.toNat ≤ x.toNat)

end Sys2Proof.Claims

/-- 15 R347, R348, R351, R363; 17 R437, R438: bit counts, bit reversal, bit fields, byte selection. -/
def Sys2Proof.Claims.LaneBits : Prop :=
  ∀ (d a b : BitVec 6) (g st : BitVec 3),
    Lane1 (.popc d a g st) d a assignedTag (tagIs 0x00)
      (fun x => BitVec.ofNat 32 ((Finset.range 32).filter (fun i => x.getLsbD i = true)).card) ∧
    Lane1 (.clz d a g st) d a assignedTag (tagIs 0x00) (fun x => if x = 0 then 32 else BitVec.ofNat 32 (31 - Nat.log2 x.toNat)) ∧
    Lane1 (.brev d a g st) d a assignedTag (tagIs 0x00) (fun x => x.reverse) ∧
    Lane2 (.bfe d a b g st) d a b assignedTag (tagIs 0x00) (fun x y => BitVec.ofNat 32 (fieldBits x y)) ∧
    Lane2 (.bfeS d a b g st) d a b assignedTag (tagIs 0x00) (fun x y =>
      if 0 < fieldTaken y ∧ 2 ^ (fieldTaken y - 1) ≤ fieldBits x y then BitVec.ofInt 32 ((fieldBits x y : Int) - 2 ^ fieldTaken y)
      else BitVec.ofNat 32 (fieldBits x y)) ∧
    Lane3 (.bfi d a b g st) d a b assignedTag (tagIs 0x00) (fun z x y => (z &&& ~~~fieldMask y) ||| ((x <<< fieldAt y) &&& fieldMask y)) ∧
    Lane3 (.pswz d a b g st) d a b assignedTag (tagIs 0x00) swizzled

/-- 15 R351, as a statement about bits. -/
def Obligations.BrevReversesBits : Prop :=
  ∀ (d a : BitVec 6) (g st : BitVec 3) s c, Ready (.brev d a g st) s c → c.takes a 1 assignedTag →
    ∃ t g', exec (.brev d a g st) s = .next t ∧ Only c s t g' ∧
      ∀ l : Fin 32, (c.acting (.brev d a g st)).getLsbD l.val = true → ∀ i < 32,
        ((g'.line (c.g.lbase + d.toNat))[l]).getLsbD i = ((c.val a)[l]).getLsbD (31 - i)

/-- 15 R363, 17 R436: in each acting lane POPC writes the number of set bits of its source, with tag RAW; CLZ writes the number of zero bits above
the highest set bit, 32 for a source of 0. -/
def Obligations.PopcAndClzCount : Prop :=
  ∀ (d a : BitVec 6) (g st : BitVec 3) s c, c.takes a 1 assignedTag →
    (Ready (.popc d a g st) s c → ∃ t g', exec (.popc d a g st) s = .next t ∧ Only c s t g' ∧ g'.tagByte (c.g.lbase + d.toNat) = 0 ∧
      ∀ l : Fin 32, (c.acting (.popc d a g st)).getLsbD l.val = true →
        ((g'.line (c.g.lbase + d.toNat))[l]).toNat =
          ((List.range 32).filter (fun i => ((c.val a)[l]).getLsbD i)).length) ∧
    (Ready (.clz d a g st) s c → ∃ t g', exec (.clz d a g st) s = .next t ∧ Only c s t g' ∧
      ∀ l : Fin 32, (c.acting (.clz d a g st)).getLsbD l.val = true →
        let x := (c.val a)[l]
        let n := ((g'.line (c.g.lbase + d.toNat))[l]).toNat
        (x = 0 → n = 32) ∧ (x ≠ 0 → n ≤ 31 ∧ x.getLsbD (31 - n) = true ∧ ∀ i, 31 - n < i → x.getLsbD i = false))

/-- 16 R405: integer dot products of packed elements, accumulated exactly modulo 2^32. -/
def Sys2Proof.Claims.LaneDotProducts : Prop :=
  ∀ (d a b : BitVec 6) (g st : BitVec 3),
    Dot (.idot4 d a b g st) d a b 4 8 0x0C 0x0D ∧ Dot (.idot8 d a b g st) d a b 8 4 0x0E 0x0F

/-- 17 R425, R426; 18 R451, R452, R460: moves, selection, lane exchange and retagging. -/
def Sys2Proof.Claims.LaneMoves : Prop :=
  ∀ (d a b : BitVec 6) (g m st : BitVec 3),
    WritesLanes (.mov d a g st) (fun c => c.takes a 1 assignedTag)
      (fun c => [(d.toNat, fun l => (c.val a)[l], (c.tagOf a).getD 0x00)]) ∧
    (∀ im, WritesLanes (.movi d im st) (fun _ => True) (fun _ => [(d.toNat, fun _ => im.signExtend 32, 0x00)])) ∧
    WritesLanes (.sel d a b m st) (fun c => c.takes a 1 assignedTag ∧ c.takes b 1 assignedTag)
      (fun c => [(d.toNat, fun l => if (c.p m.toNat).getLsbD l.val then (c.val a)[l] else (c.val b)[l],
        (match lanesOf c.f.mask with
         | l :: _ => if (c.p m.toNat).getLsbD l then c.tagOf a else c.tagOf b
         | [] => c.tagOf a).getD 0x00)]) ∧
    WritesLanes (.slane d a b m st) (fun c => c.takes a 1 assignedTag ∧ c.takes b 1 assignedTag)
      (fun c => [(d.toNat, fun l =>
        let from_ := laneNamed m (lanesOf c.f.mask) l.val (c.val b)[l]
        if 0 ≤ from_ ∧ from_ < 32 ∧ c.f.mask.getLsbD from_.toNat = true then (c.val a).toList.getD from_.toNat 0 else (c.val a)[l],
        (c.tagOf a).getD 0x00)]) ∧
    (∀ f : BitVec 5, f.toNat ≤ 0x13 →
      WritesLanes (.tag d a f st) (fun c => c.takes a (if f = 0x04 then 2 else 1) assignedTag)
        (fun c => (List.range (if f = 0x04 then 2 else 1)).map (fun j => (d.toNat + j, fun l => (c.val a j)[l], f))))

/-- 16 R407, 14 R323: integer comparison into a predicate. -/
def Sys2Proof.Claims.LaneComparisons : Prop :=
  ∀ (p cc : BitVec 3) (a b : BitVec 6) (g st : BitVec 3),
    WritesPredicate (.itest p cc a b g st) p.toNat (fun c => c.takes a 1 integerTag ∧ c.takes b 1 integerTag)
      (fun c l => compared cc (c.val a)[l] (c.val b)[l]) ∧
    WritesPredicate (.itestD p cc a b g st) p.toNat (fun c => c.takes a 2 integerTag ∧ c.takes b 2 integerTag)
      (fun c l => compared cc ((c.val a 1)[l] ++ (c.val a 0)[l]) ((c.val b 1)[l] ++ (c.val b 0)[l]))

namespace Sys2Proof.Claims

/-- A uniform instruction writing `f` of its sources to kD. -/
def Uni1 (i : Instr) (d a : BitVec 5) (f : Word → Word) : Prop := WritesUniform i (fun c => [(d.toNat, f (c.kf a))])
def Uni2 (i : Instr) (d a b : BitVec 5) (f : Word → Word → Word) : Prop :=
  WritesUniform i (fun c => [(d.toNat, f (c.kf a) (c.kf b))])

/-- The value that a software write may give a special register (04 R93): no reserved bit, and a rounding mode of 0 to 4. -/
def writable (r : Nat) (x : Word) : Prop :=
  (r = 0x010 ∧ x.toNat ≤ 4) ∨ (r = 0x011 ∧ x.toNat < 2 ^ 5) ∨ (r = 0x012 ∧ x.extractLsb' 27 4 = 0) ∨ (r = 0x013 ∧ x.toNat < 2) ∨
  (r = 0x018 ∧ x.toNat < 2 ^ 16) ∨ r = 0x01C ∨ (r = 0x028 ∧ x.toNat < 2 ^ 6)

end Sys2Proof.Claims

/-- 18 R465: the uniform integer instructions write the table's results. -/
def Sys2Proof.Claims.UniformResults : Prop :=
  ∀ (d a b e : BitVec 5) (q : BitVec 2) (st : BitVec 3),
    Uni2 (.uadd d a b q st) d a b (fun x y => x + y) ∧
    Uni2 (.usub d a b q st) d a b (fun x y => x - y) ∧
    Uni2 (.umul d a b q st) d a b (fun x y => x * y) ∧
    Uni2 (.umulh d a b q st) d a b (fun x y => high (x.toInt * y.toInt)) ∧
    Uni2 (.umulhU d a b q st) d a b (fun x y => high (x.toNat * y.toNat : Nat)) ∧
    Uni2 (.uand d a b q st) d a b (fun x y => x &&& y) ∧
    Uni2 (.uor d a b q st) d a b (fun x y => x ||| y) ∧
    Uni2 (.uxor d a b q st) d a b (fun x y => x ^^^ y) ∧
    Uni2 (.ushl d a b q st) d a b (fun x y => shiftLeft x (y.toNat % 256)) ∧
    Uni2 (.ushr d a b q st) d a b (fun x y => shiftRight x (y.toNat % 256)) ∧
    Uni2 (.usar d a b q st) d a b (fun x y => shiftSigned x (y.toNat % 256)) ∧
    Uni2 (.umin d a b q st) d a b (fun x y => BitVec.ofInt 32 (min x.toInt y.toInt)) ∧
    Uni2 (.uminU d a b q st) d a b (fun x y => BitVec.ofNat 32 (min x.toNat y.toNat)) ∧
    Uni2 (.umax d a b q st) d a b (fun x y => BitVec.ofInt 32 (max x.toInt y.toInt)) ∧
    Uni2 (.umaxU d a b q st) d a b (fun x y => BitVec.ofNat 32 (max x.toNat y.toNat)) ∧
    Uni1 (.umov d a q st) d a (fun x => x) ∧
    Uni1 (.upopc d a q st) d a (fun x => BitVec.ofNat 32 ((Finset.range 32).filter (fun i => x.getLsbD i = true)).card) ∧
    Uni1 (.uclz d a q st) d a (fun x => if x = 0 then 32 else BitVec.ofNat 32 (31 - Nat.log2 x.toNat)) ∧
    WritesUniform (.umad d a b e) (fun c => [(d.toNat, c.kf a * c.kf b + c.kf e)])

/-- 18 R465, R466: immediates, bit fields, 64-bit sums, selection, and comparison into a uniform predicate. -/
def Sys2Proof.Claims.UniformImmediatesAndFields : Prop :=
  ∀ (d a b e : BitVec 5) (q m : BitVec 2) (cc st : BitVec 3),
    (∀ im, Uni1 (.uaddi d a im st) d a (fun x => x + im.signExtend 32)) ∧
    (∀ im, Uni1 (.uandi d a im st) d a (fun x => x &&& im.zeroExtend 32)) ∧
    (∀ im, Uni1 (.uori d a im st) d a (fun x => x ||| im.zeroExtend 32)) ∧
    (∀ im, Uni1 (.ushli d a im st) d a (fun x => shiftLeft x im.toNat)) ∧
    (∀ im, Uni1 (.ushri d a im st) d a (fun x => shiftRight x im.toNat)) ∧
    (∀ im, WritesUniform (.umovi d im st) (fun _ => [(d.toNat, im.signExtend 32)])) ∧
    (∀ im, WritesUniform (.ului d im st) (fun _ => [(d.toNat, BitVec.ofNat 32 (im.toNat * 2 ^ 16))])) ∧
    Uni2 (.ubfe d a b 0 q st) d a b (fun x y => BitVec.ofNat 32 (fieldBits x y)) ∧
    Uni2 (.ubfe d a b 1 q st) d a b (fun x y =>
      if 0 < fieldTaken y ∧ 2 ^ (fieldTaken y - 1) ≤ fieldBits x y then BitVec.ofInt 32 ((fieldBits x y : Int) - 2 ^ fieldTaken y)
      else BitVec.ofNat 32 (fieldBits x y)) ∧
    WritesUniform (.ubfi d a b e) (fun c =>
      [(d.toNat, (c.kf e &&& ~~~fieldMask (c.kf b)) ||| ((c.kf a <<< fieldAt (c.kf b)) &&& fieldMask (c.kf b)))]) ∧
    WritesUniform (.uadd64 d a b q st) (fun c =>
      let t := (c.k (a.toNat + 1) ++ c.k a.toNat) + (c.k (b.toNat + 1) ++ c.k b.toNat)
      [(d.toNat, t.extractLsb' 0 32), (d.toNat + 1, t.extractLsb' 32 32)]) ∧
    WritesUniform (.usel d a b m q st) (fun c => [(d.toNat, if c.q m.toNat then c.kf a else c.kf b)]) ∧
    (∀ s c, Ready (.usetp d a b cc q st) s c →
      ∃ t g', exec (.usetp d a b cc q st) s = .next t ∧ Only c s t g' ∧ Advanced c g' st.toNat ∧ Keeps c g' { q := [d.toNat] } ∧
        (d.toNat < 3 → g'.qbit d.toNat = compared cc (c.kf a) (c.kf b)) ∧ (d.toNat = 3 → g'.q = c.g.q))

/-- 18 R446, R469, R461: what uniform registers receive from lane registers: one lane, the lowest lane of a set, its mask, count or
agreement, and a tag. S is the fragment's live lanes whose predicate bit is set. -/
def Sys2Proof.Claims.UniformFromLanes : Prop :=
  ∀ (d : BitVec 5) (v : BitVec 6) (b : BitVec 5) (p : BitVec 3) (st : BitVec 3),
    WritesUniform (.rdl d v b st) (fun c => [(d.toNat, (c.val v).toList.getD ((c.kf b).toNat % 32) 0)]) ∧
    WritesUniform (.rfal d v p 0 st) (fun c => [(d.toNat,
      match lanesOf (c.f.mask &&& c.p p.toNat) with | l :: _ => (c.val v).toList.getD l 0 | [] => 0)]) ∧
    WritesUniform (.rfal d v p 1 st) (fun c => [(d.toNat,
      match lanesOf (c.f.mask &&& c.p p.toNat) with | l :: _ => BitVec.ofNat 32 l | [] => 32)]) ∧
    WritesUniform (.vlane d v p 0 st) (fun c => [(d.toNat, c.f.mask &&& c.p p.toNat)]) ∧
    WritesUniform (.vlane d v p 1 st) (fun c =>
      let set := lanesOf (c.f.mask &&& c.p p.toNat)
      [(d.toNat, BitVec.ofNat 32 (set.length + (if set = lanesOf c.f.mask then 2 ^ 8 else 0) + (if set = [] then 0 else 2 ^ 9)))]) ∧
    WritesUniform (.vlane d v p 2 st) (fun c =>
      let set := lanesOf (c.f.mask &&& c.p p.toNat)
      [(d.toNat, if ∀ l ∈ set, ∀ m ∈ set, (c.val v).toList.getD l 0 = (c.val v).toList.getD m 0 then 1 else 0)]) ∧
    WritesUniform (.tagr d v 0 st) (fun c => [(d.toNat, ((c.tagOf v).getD 0).zeroExtend 32)]) ∧
    (∀ s c, Ready (.tagr d v 1 st) s c → c.g.role = .matrix →
      (assignedTag (c.g.tileTag (v.toNat % 8)) = true →
        ∃ t g', exec (.tagr d v 1 st) s = .next t ∧ Only c s t g' ∧ Advanced c g' st.toNat ∧ Keeps c g' { k := [d.toNat] } ∧
          g'.kreg d.toNat = (c.g.tileTag (v.toNat % 8)).zeroExtend 32) ∧
      (assignedTag (c.g.tileTag (v.toNat % 8)) = false →
        exec (.tagr d v 1 st) s = .next (groupStop s c.key c.slot c.f.pc { kind := 0x05 })))

namespace Sys2Proof.Claims

/-- The special registers other than LANE, by number, with what each reads (04 R93). -/
def specials (g : Group) : List (Nat × Word) := [
  (0x001, g.groupix.zeroExtend 32), (0x002, g.unitix.zeroExtend 32), (0x003, g.cluix.zeroExtend 32), (0x004, g.launchid),
  (0x005, match g.role with | .copy => 0 | .matrix => 1 | .vector => 2), (0x006, BitVec.ofNat 32 g.core), (0x007, BitVec.ofNat 32 g.part),
  (0x010, (g.mode.extractLsb' 0 3).zeroExtend 32), (0x011, (g.fexc.extractLsb' 0 5).zeroExtend 32),
  (0x012, g.fnan &&& 0x87FFFFFF), (0x013, (g.mode.extractLsb' 3 1).zeroExtend 32), (0x014, BitVec.ofNat 32 (g.lbase % 256)),
  (0x015, BitVec.ofNat 32 g.wdepth), (0x018, g.mtmask.zeroExtend 32), (0x019, g.geostg.extractLsb' 0 32),
  (0x01A, g.geostg.extractLsb' 32 32), (0x01B, g.geodone), (0x01C, g.geocnt), (0x020, g.ctrCopy.zeroExtend 32),
  (0x021, g.ctrMatrix.zeroExtend 32), (0x022, g.ctrRemote.zeroExtend 32), (0x023, g.ctrIo.zeroExtend 32),
  (0x028, (g.qthr.extractLsb' 0 6).zeroExtend 32), (0x029, g.bphase), (0x030, g.frec.faultword &&& 0x00FFFFFF),
  (0x031, g.frec.faddr.extractLsb' 0 32), (0x032, (g.frec.faddr.extractLsb' 32 24).zeroExtend 32), (0x040, g.tickets),
  (0x050, g.wgen), (0x060, g.keymask.zeroExtend 32)]

end Sys2Proof.Claims

/-- 18 R453, 04 R93, R94: SRD of every listed special register, to a uniform register and to lanes; LANE goes to lanes alone. (A
matrix or geometric instruction in flight that writes the register holds SRD back; it is then not ready.) -/
def Sys2Proof.Claims.SpecialRegisterRead : Prop :=
  ∀ (d : BitVec 6) (r : BitVec 11) (st : BitVec 3) s c,
    (Ready (.srd 0 d r st) s c →
      ∃ t g', exec (.srd 0 d r st) s = .next t ∧ Only c s t g' ∧ Advanced c g' st.toNat ∧ Keeps c g' { k := [d.toNat] } ∧
        ∃ x, (r.toNat, x) ∈ specials c.g ∧ g'.kreg d.toNat = x) ∧
    (Ready (.srd 1 d r st) s c →
      ∃ t g', exec (.srd 1 d r st) s = .next t ∧ Only c s t g' ∧ Advanced c g' st.toNat ∧ Keeps c g' { v := [d.toNat] } ∧
        g'.tagByte (c.g.lbase + d.toNat) = 0x02 ∧
        ∃ x : Fin 32 → Word, (if r = 0 then x = fun l => BitVec.ofNat 32 l.val else ∃ y, (r.toNat, y) ∈ specials c.g ∧ x = fun _ => y) ∧
          ∀ l : Fin 32, (g'.line (c.g.lbase + d.toNat))[l] = if c.f.mask.getLsbD l.val then x l else (c.g.line (c.g.lbase + d.toNat))[l])

/-- 04 R93: SWR of a value without a reserved bit gives the register that value and changes no other special register and nothing
else; any other value raises an illegal-instruction trap. (A matrix or geometric instruction in flight holds SWR of MTMASK or GEOCNT
back; it is then not ready.) -/
def Sys2Proof.Claims.SpecialRegisterWrite : Prop :=
  ∀ (d : BitVec 5) (r : BitVec 11) (st : BitVec 3) s c, Ready (.swr d r st) s c →
    (writable r.toNat (c.kf d) →
      ∃ t g', exec (.swr d r st) s = .next t ∧ Only c s t g' ∧ Advanced c g' st.toNat ∧ (r.toNat, c.kf d) ∈ specials g' ∧
        (∀ x, x.1 ≠ r.toNat → (x ∈ specials g' ↔ x ∈ specials c.g)) ∧
        g' = { c.g with
          live0 := g'.live0, live1 := g'.live1, readyAt := g'.readyAt, lastSlot := g'.lastSlot, issues := g'.issues, hazards := g'.hazards, geoOp := g'.geoOp
          mode := g'.mode, fexc := g'.fexc, fnan := g'.fnan, mtmask := g'.mtmask, geocnt := g'.geocnt, qthr := g'.qthr }) ∧
    (¬ writable r.toNat (c.kf d) → exec (.swr d r st) s = .next (groupStop s c.key c.slot c.f.pc { kind := 0x01 }))

namespace Sys2Proof.Claims

/-- After a float instruction of format `fmt` the machine is `s` with the group at issue replaced by `g'`; an FP64 form also takes the
vector pipes of its partition until four cycles later (16 R372). Memory and all else are unchanged. -/
def FloatOnly (c : Ctx) (s t : State) (g' : Group) (fmt : BitVec 5) : Prop :=
  t = { s with
    groups := Assoc.put c.key g' s.groups, issue := none, fresh := s.fresh + 1
    parts := if fmt = 0x04 then (s.setPart c.g.partNo { s.part c.g.partNo with vecBusy := c.now + 4 }).parts else s.parts } ∧
  ∀ a, t.byte a = s.byte a

/-- A lane's value of packed element results. -/
def packed (t : BitVec 5) (rs : List FRes) : Nat := ((rs.mapIdx (fun e r => elemPlace t e r.code))).sum

/-- The float flags of a list of results, joined. -/
def joined (rs : List FRes) : FloatFlags := rs.foldl (fun f r => f.or r.flags) {}

/-- FNAN after a float instruction (05 R113): written only while VALID is clear, by the lowest lane in which an invalid operation
produced a NaN. -/
def firstNan (c : Ctx) (act : Mask) (rs : Nat → List FRes) : Word :=
  if c.g.fnan.getLsbD 31 then c.g.fnan
  else
    match (lanesOf act).find? (fun l => (rs l).any (fun r => r.origin)) with
    | some l => (1 : BitVec 1) ++ (0 : BitVec 4) ++ BitVec.ofNat 5 l ++ c.f.pc.off ++ c.f.pc.ovl
    | none => c.g.fnan

/-- Instruction `i`, where it is ready and `ok` holds, completes with the element results `rs` of each acting lane packed into its
destination registers under tag `out`, the flags joined into FEXC, and FNAN as R113 says; `fmt` is the format that decides whether it
takes the vector pipes. -/
def FloatResult (i : Instr) (ok : Ctx → Prop) (fmt out : Ctx → BitVec 5) (dests : Ctx → List Nat) (rs : Ctx → Nat → List FRes) : Prop :=
  ∀ s c, Ready i s c → ok c →
    ∃ t g', exec i s = .next t ∧ FloatOnly c s t g' (fmt c) ∧ Advanced c g' (shapeOf c.g i).stall ∧
      Keeps c g' { v := dests c, float := true } ∧
      (∀ j d, (dests c)[j]? = some d → g'.tagByte (c.g.lbase + d) = (out c).zeroExtend 8 ∧
        ∀ l : Fin 32, (g'.line (c.g.lbase + d))[l] =
          if (c.acting i).getLsbD l.val then BitVec.ofNat 32 (packed (out c) (rs c l.val) / 2 ^ (32 * j))
          else (c.g.line (c.g.lbase + d))[l]) ∧
      g'.fexc = c.g.fexc ||| (joined ((lanesOf (c.acting i)).flatMap (rs c))).bits ∧ g'.fnan = firstNan c (c.acting i) (rs c)

/-- The operands of a float instruction (16 R370): its operating format is accepted, every lane register among its sources carries it,
and FP64 operands are even pairs. -/
def floatOk (srcs pairs : List (BitVec 6)) (ok : BitVec 5 → Bool) (c : Ctx) : Prop :=
  ok (c.opFormat srcs) = true ∧ (c.opFormat srcs = 0x04 → ∀ x ∈ pairs, x.toNat % 2 = 0) ∧
  ∀ x ∈ srcs, c.takes x (regsOf (c.opFormat srcs)) (fun u => decide (u = c.opFormat srcs))

/-- The formats of float arithmetic; FP64, FP32 and F19 alone; FP32 alone. -/
def arithmetic (t : BitVec 5) : Bool := decide (t = 0x03 ∨ t = 0x04 ∨ t = 0x13 ∨ t = 0x05 ∨ t = 0x06)
def wide (t : BitVec 5) : Bool := decide (t = 0x03 ∨ t = 0x04 ∨ t = 0x13)
def single (t : BitVec 5) : Bool := decide (t = 0x03)

/-- The source values of element `e` in lane `l`, decoded. -/
def sources (c : Ctx) (srcs : List (BitVec 6)) (l e : Nat) : List FVal :=
  let t := c.opFormat srcs
  srcs.map (fun x => ((fmtOf t).getD fp32).decode (elemCode t (c.floatVal t x l) e))

/-- A float instruction that gives each element from the values of its sources. -/
def Elementwise (i : Instr) (d : BitVec 6) (srcs : List (BitVec 6)) (ok : BitVec 5 → Bool) (f : Fmt → Nat → Site → List FVal → FRes) :
    Prop :=
  FloatResult i (floatOk srcs (d :: srcs) ok) (fun c => c.opFormat srcs) (fun c => c.opFormat srcs)
    (fun c => (List.range (regsOf (c.opFormat srcs))).map (fun j => d.toNat + j))
    (fun c l => (List.range (floatElems (c.opFormat srcs))).map (fun e =>
      f ((fmtOf (c.opFormat srcs)).getD fp32) c.g.rmode ⟨c.f.pc.word.toNat, l⟩ (sources c srcs l e)))

/-- The first, second and third of a list of values. -/
def nth (xs : List FVal) (n : Nat) : FVal := xs.getD n (.num false 0 0)

/-- A finite value as a rational number; the value of a code without sign. -/
def magnitude (m : Nat) (e : Int) : ℚ := m * (2 : ℚ) ^ e
def codeValue (f : Fmt) (code : Nat) : ℚ := match f.decode code with | .num _ m e => magnitude m e | _ => 0
def signed (neg : Bool) (m : Nat) (e : Int) : ℚ := (if neg then -1 else 1) * magnitude m e
def finite (v : FVal) : Option ℚ := match v with | .num neg m e => some (signed neg m e) | _ => none

/-- The float formats that conversions name, and the integer formats. -/
def floatFormat (t : BitVec 5) : Prop := t ∈ ([0x03, 0x04, 0x05, 0x06, 0x07, 0x08, 0x09, 0x0A, 0x0B, 0x13] : List (BitVec 5))
def integerFormat (t : BitVec 5) : Prop := t ∈ ([0x01, 0x02, 0x0C, 0x0D, 0x0E, 0x0F, 0x10, 0x11, 0x12] : List (BitVec 5))

/-- The operands of a conversion from `t` to `f` (16 R377): each side takes its registers, in the window or among the broadcast codes, FP64
in even pairs, and every source register has the tag of the first. -/
def converts (c : Ctx) (d a : BitVec 6) (t f : BitVec 5) : Prop :=
  let from_ := cvtElems2 t f / density2 t
  let into := cvtElems2 t f / density2 f
  (a.toNat < 48 → a.toNat + from_ ≤ 48) ∧ a.toNat + from_ ≤ 64 ∧ d.toNat + into ≤ 48 ∧
  (t = 0x04 → a.toNat % 2 = 0) ∧ (f = 0x04 → d.toNat % 2 = 0) ∧ c.takes a from_ (fun u => decide (u = (c.tagOf a).getD t))

/-- No element of a conversion from I2T is the code 2, none from I4X a double escape (05 R103, R104). -/
def soundElements (c : Ctx) (a : BitVec 6) (t f : BitVec 5) : Prop :=
  ∀ l ∈ lanesOf c.f.mask, ∀ i < cvtElems2 t f / 2,
    (t = 0x11 → (lane (c.val a (i / 16)) l).toNat / 4 ^ (i % 16) % 4 ≠ 2) ∧
    (t = 0x10 → (lane (c.val a (i / 8)) l).toNat / 256 ^ (i % 8 / 2) % 256 ≠ 0x88)

/-- The ten float formats (05 R99). -/
def formats : List Fmt := [fp64, fp32, f19, bf16, fp16, e5m2, e4m3, e3m2, e2m3, e2m1]

end Sys2Proof.Claims

/-- 16 R374, R375, R386: sums, products, fused products, minima and maxima in the operating format. -/
def Sys2Proof.Claims.FloatArithmetic : Prop :=
  ∀ (d a b : BitVec 6) (g st : BitVec 3),
    Elementwise (.fadd d a b g st) d [a, b] arithmetic (fun f m x v => f.add m x (nth v 0) (nth v 1)) ∧
    Elementwise (.fsub d a b g st) d [a, b] arithmetic (fun f m x v => f.sub m x (nth v 0) (nth v 1)) ∧
    Elementwise (.fmul d a b g st) d [a, b] arithmetic (fun f m x v => f.mul m x (nth v 0) (nth v 1)) ∧
    Elementwise (.fma d a b g st) d [a, b, d] arithmetic (fun f m x v => f.fma m x false false (nth v 0) (nth v 1) (nth v 2)) ∧
    Elementwise (.fms d a b g st) d [a, b, d] arithmetic (fun f m x v => f.fma m x false true (nth v 0) (nth v 1) (nth v 2)) ∧
    Elementwise (.fnma d a b g st) d [a, b, d] arithmetic (fun f m x v => f.fma m x true false (nth v 0) (nth v 1) (nth v 2)) ∧
    Elementwise (.fmin d a b g st) d [a, b] arithmetic (fun f _ _ v => f.minMax false (nth v 0) (nth v 1)) ∧
    Elementwise (.fmax d a b g st) d [a, b] arithmetic (fun f _ _ v => f.minMax true (nth v 0) (nth v 1))

/-- 16 R373: FABS clears and FNEG complements the sign bit of each element, of NaNs too, and raises nothing. -/
def Sys2Proof.Claims.FloatSigns : Prop :=
  ∀ (d a : BitVec 6) (g st : BitVec 3),
    let sign (c : Ctx) : Nat := 2 ^ (elemBits (c.opFormat [a]) - (if c.opFormat [a] = 0x13 then 14 else 1))
    let elems (c : Ctx) (l : Nat) : List Nat := (List.range (floatElems (c.opFormat [a]))).map
      (fun e => elemCode (c.opFormat [a]) (c.floatVal (c.opFormat [a]) a l) e)
    FloatResult (.fabs d a g st) (floatOk [a] [d, a] arithmetic) (fun c => c.opFormat [a]) (fun c => c.opFormat [a])
      (fun c => (List.range (regsOf (c.opFormat [a]))).map (fun j => d.toNat + j))
      (fun c l => (elems c l).map (fun x => { code := x % sign c })) ∧
    FloatResult (.fneg d a g st) (floatOk [a] [d, a] arithmetic) (fun c => c.opFormat [a]) (fun c => c.opFormat [a])
      (fun c => (List.range (regsOf (c.opFormat [a]))).map (fun j => d.toNat + j))
      (fun c l => (elems c l).map (fun x => { code := x % sign c + (if x / sign c % 2 = 1 then 0 else sign c) }))

/-- 16 R387, R390, R391: reciprocal, roots, transcendental functions, rounding to an integral value and scaling. A broadcast A of FSCL takes the
tag of a lane register B (04 R79), which FSCL has no format for: a tag trap (log 120). -/
def Sys2Proof.Claims.FloatFunctions : Prop :=
  ∀ (d a b : BitVec 6) (g st : BitVec 3),
    Elementwise (.frcp d a g st) d [a] wide (fun f m x v => f.frcp m x (nth v 0)) ∧
    Elementwise (.fsqrt d a g st) d [a] wide (fun f m x v => f.fsqrt m x (nth v 0)) ∧
    Elementwise (.frsq d a g st) d [a] single (fun f _ x v => f.frsq x (nth v 0)) ∧
    Elementwise (.fexp2 d a g st) d [a] single (fun f _ _ v => f.fexp2 (nth v 0)) ∧
    Elementwise (.flog2 d a g st) d [a] single (fun f _ x v => f.flog2 x (nth v 0)) ∧
    Elementwise (.fsin d a g st) d [a] single (fun f _ x v => f.circular x false (nth v 0)) ∧
    Elementwise (.fcos d a g st) d [a] single (fun f _ x v => f.circular x true (nth v 0)) ∧
    FloatResult (.fscl d a b g st)
      (fun c => floatOk [a] [d, a] arithmetic c ∧ c.takes b 1 (fun t => decide (t = 0x00 ∨ t = 0x01)) ∧ (48 ≤ a.toNat → 48 ≤ b.toNat))
      (fun c => c.opFormat [a]) (fun c => c.opFormat [a]) (fun c => (List.range (regsOf (c.opFormat [a]))).map (fun j => d.toNat + j))
      (fun c l => (List.range (floatElems (c.opFormat [a]))).map (fun e =>
        ((fmtOf (c.opFormat [a])).getD fp32).scale c.g.rmode (nth (sources c [a] l e) 0) ((c.val b).toList.getD l 0).toInt)) ∧
    (∀ s c, Ready (.fscl d a b g st) s c → 48 ≤ a.toNat → b.toNat < 48 →
      exec (.fscl d a b g st) s = .next (groupStop s c.key c.slot c.f.pc { kind := 0x05, entry := BitVec.ofNat 8 b.toNat })) ∧
    (∀ (f : BitVec 5) (r : BitVec 3),
      FloatResult (.frnd d a f r st)
        (fun c => arithmetic f = true ∧ (f = 0x04 → d.toNat % 2 = 0 ∧ a.toNat % 2 = 0) ∧ c.takes a (regsOf f) (fun u => decide (u = f)))
        (fun _ => f) (fun _ => f) (fun _ => (List.range (regsOf f)).map (fun j => d.toNat + j))
        (fun c l => (List.range (floatElems f)).map (fun e =>
          ((fmtOf f).getD fp32).integral (if r = 7 then c.g.rmode else r.toNat)
            (((fmtOf f).getD fp32).decode (elemCode f (c.floatVal f a l) e)))))

/-- 16 R380, R381: dot products of two BF16 or FP16 elements, or four E4M3 or E5M2 elements, summed with vD exactly and rounded once: of
finite operands with a sum other than 0, the result is the rounding of the exact sum. -/
def Sys2Proof.Claims.FloatDotProducts : Prop :=
  ∀ (d a b : BitVec 6) (g st : BitVec 3),
    FloatResult (.fdot2 d a b g st)
      (fun c => c.takes a 1 (fun t => decide (t = 0x05 ∨ t = 0x06)) ∧ c.takes b 1 (fun t => decide (t = 0x05 ∨ t = 0x06)) ∧ c.takes d 1 single)
      (fun _ => 0x03) (fun _ => 0x03) (fun _ => [d.toNat])
      (fun c l => [dotLane 2 c.g.rmode ⟨c.f.pc.word.toNat, l⟩ (c.dotFormat a b 0x05) (c.dotFormat b a 0x05)
        ((c.val a).toList.getD l 0).toNat ((c.val b).toList.getD l 0).toNat ((c.val d).toList.getD l 0).toNat]) ∧
    FloatResult (.fdot4 d a b g st)
      (fun c => c.takes a 1 (fun t => decide (t = 0x07 ∨ t = 0x08)) ∧ c.takes b 1 (fun t => decide (t = 0x07 ∨ t = 0x08)) ∧ c.takes d 1 single)
      (fun _ => 0x03) (fun _ => 0x03) (fun _ => [d.toNat])
      (fun c l => [dotLane 4 c.g.rmode ⟨c.f.pc.word.toNat, l⟩ (c.dotFormat a b 0x07) (c.dotFormat b a 0x07)
        ((c.val a).toList.getD l 0).toNat ((c.val b).toList.getD l 0).toNat ((c.val d).toList.getD l 0).toNat]) ∧
    ∀ (n mode x y z : Nat) (at_ : Site) (t u : BitVec 5) (vx vy : Nat → ℚ) (vz : ℚ),
      (∀ e < n, finite (((fmtOf t).getD bf16).decode (elemCode t x e)) = some (vx e)) →
      (∀ e < n, finite (((fmtOf u).getD bf16).decode (elemCode u y e)) = some (vy e)) → finite (fp32.decode z) = some vz →
      let sum := ((List.range n).map (fun e => vx e * vy e)).sum + vz
      sum ≠ 0 → ∃ neg m e, sum = signed neg m e ∧ dotLane n mode at_ t u x y z = fp32.result mode neg m e

/-- 16 R377 to R379, R403, R404: conversions between formats, element by element; the density of the wider element decides how many
registers each side takes. A finite value other than 0 becomes its rounding in the format; a whole number in the range of an integer
format becomes itself. -/
def Sys2Proof.Claims.Conversions : Prop :=
  ∀ (d a : BitVec 6) (f : BitVec 5) (r st : BitVec 3),
    let elems (c : Ctx) (t : BitVec 5) (l : Nat) : List FRes := (List.range (cvtElems2 t f / 2)).map (fun i =>
      cvtElem (if r = 7 then c.g.rmode else r.toNat) t f (c.cvtPlace a t l i).1 (c.cvtPlace a t l i).2)
    let pipes (t : BitVec 5) : BitVec 5 := if t = 0x04 then 0x04 else f
    let source (c : Ctx) : BitVec 5 := (c.tagOf a).getD 0x03
    FloatResult (.fcvt d a f r st) (fun c => floatFormat (source c) ∧ floatFormat f ∧ converts c d a (source c) f)
      (fun c => pipes (source c)) (fun _ => f) (fun c => (List.range (cvtElems2 (source c) f / density2 f)).map (fun j => d.toNat + j))
      (fun c l => elems c (source c) l) ∧
    FloatResult (.icvt d a f r st)
      (fun c =>
        let t := c.icvtSource a
        (integerFormat t ∨ arithmetic t = true) ∧ (integerFormat f ∨ arithmetic f = true) ∧ (integerFormat t ∨ integerFormat f) ∧
        converts c d a t f ∧ soundElements c a t f)
      (fun c => pipes (c.icvtSource a)) (fun _ => f)
      (fun c => (List.range (cvtElems2 (c.icvtSource a) f / density2 f)).map (fun j => d.toNat + j))
      (fun c l => elems c (c.icvtSource a) l) ∧
    ∀ (t : BitVec 5) (ft ff : Fmt) (mode v i : Nat) (x : ℚ), fmtOf t = some ft → finite (ft.decode (elemCode t v i)) = some x →
      (fmtOf f = some ff → x ≠ 0 → ∃ neg m e, x = signed neg m e ∧ cvtElem mode t f v i = ff.result mode neg m e) ∧
      (integerFormat f → ∀ z : Int, x = z → (intRange f).1 ≤ z → z ≤ (intRange f).2 →
        cvtElem mode t f v i = { code := (z % 2 ^ elemBits f).toNat })

/-- 16 R376, R392: the class mask of each element, and comparison into a predicate with its flags. -/
def Sys2Proof.Claims.FloatTests : Prop :=
  ∀ (p cc : BitVec 3) (d a b : BitVec 6) (g st : BitVec 3),
    (∀ s c, Ready (.fclass d a g st) s c → floatOk [a] [a] arithmetic c →
      ∃ t g', exec (.fclass d a g st) s = .next t ∧ FloatOnly c s t g' (c.opFormat [a]) ∧ Advanced c g' st.toNat ∧
        Keeps c g' { v := [d.toNat] } ∧ g'.tagByte (c.g.lbase + d.toNat) = 0x02 ∧
        ∀ l : Fin 32, (c.acting (.fclass d a g st)).getLsbD l.val = true →
          (g'.line (c.g.lbase + d.toNat))[l] = BitVec.ofNat 32 (((List.range (floatElems (c.opFormat [a]))).map (fun e =>
            ((fmtOf (c.opFormat [a])).getD fp32).classify (nth (sources c [a] l.val e) 0) * 2 ^ (16 * e))).sum)) ∧
    (∀ s c, Ready (.ftest p cc a b g st) s c → floatOk [a, b] [a, b] wide c →
      ∃ t g', exec (.ftest p cc a b g st) s = .next t ∧ FloatOnly c s t g' (c.opFormat [a, b]) ∧ Advanced c g' st.toNat ∧
        Keeps c g' { p := [p.toNat], float := true } ∧ g'.fnan = c.g.fnan ∧
        g'.fexc = c.g.fexc ||| (((lanesOf (c.acting (.ftest p cc a b g st))).map (fun l =>
          (compareFloat cc (nth (sources c [a, b] l 0) 0) (nth (sources c [a, b] l 0) 1)).2)).foldl FloatFlags.or {}).bits ∧
        (p.toNat ≠ 7 → ∀ l : Fin 32, (g'.preg p.toNat).getLsbD l.val =
          if (c.acting (.ftest p cc a b g st)).getLsbD l.val then
            (compareFloat cc (nth (sources c [a, b] l.val 0) 0) (nth (sources c [a, b] l.val 0) 1)).1
          else (c.g.preg p.toNat).getLsbD l.val))

/-- 05 R108: under RNE a nonzero magnitude m × 2^e that does not overflow becomes a code whose value is at least as near as any other
finite code's. -/
def Sys2Proof.Claims.RoundToNearest : Prop :=
  ∀ f ∈ formats, ∀ (neg : Bool) (m : Nat) (e : Int), m ≠ 0 → (f.round 0 neg m e false).2.overflow = false → ∀ y ≤ f.maxCode,
    |magnitude m e - codeValue f (f.round 0 neg m e false).1| ≤ |magnitude m e - codeValue f y|

/-- 05 R108: a value that a format holds is its own rounding in every mode, and raises no flag. -/
def Sys2Proof.Claims.RoundingKeepsExactValues : Prop :=
  ∀ f ∈ formats, ∀ (mode : Nat) (neg : Bool) (x : Nat), x ≤ f.maxCode → ∀ n m e, f.decode x = .num n m e →
    f.round mode neg m e false = (x, {})

namespace Sys2Proof.Claims

/-- The sectors of other chips that some lanes' targets lie in. -/
def sectorsAway (lanes : List Nat) (tgt : Nat → Option Nat × Nat) : List (Option Nat × Nat) :=
  ((lanes.map (fun l => ((tgt l).1, (tgt l).2 / 64))).eraseDups).filter (fun x => x.1.isSome)

/-- Where the lanes of a memory instruction reach: each address is aligned to `n` and its checks place it at `tgt`, a flat address of
this module or an offset on a chip; no vector-role read meets a weight-marked line and no atomic a poisoned one; an access to another
chip finds room in the ticket table of the core, and a store to one room in the counter of remote stores, beside the group's ordered flags that
have not been sent. -/
structure Reaches (c : Ctx) (lanes : List Nat) (who : Nat → Option Nat) (va : Nat → Nat) (n : Nat) (write atomic : Bool)
    (tgt : Nat → Option Nat × Nat) : Prop where
  aligned : ∀ l ∈ lanes, va l % n = 0
  here : ∀ l ∈ lanes, (∃ f flat, c.s.place c.g (who l) (va l) write = .here flat f ∧ tgt l = (none, flat)) ∨
    ∃ ch off, c.s.place c.g (who l) (va l) write = .chip ch off ∧ tgt l = (some ch, off)
  unmarked : c.g.role = .vector → (write = false ∨ atomic = true) → ∀ l ∈ lanes, ∀ flat, tgt l = (none, flat) → c.s.marked flat = false
  sound : atomic = true → ∀ l ∈ lanes, ∀ flat, tgt l = (none, flat) → c.s.poisoned flat = false
  room : (∃ l ∈ lanes, (tgt l).1 ≠ none) → ∃ e < 32, Assoc.find (32 * c.g.core + e) c.s.rtkt = none
  count : write = true → atomic = false → c.g.ctrRemote.toNat + c.s.unsentFlags c.key + (sectorsAway lanes tgt).length ≤ 65535

/-- Byte `x` lies outside the page-table entries of the walks that the lanes' translations made. -/
def OffTables (c : Ctx) (lanes : List Nat) (who : Nat → Option Nat) (va : Nat → Nat) (write : Bool) (x : Nat) : Prop :=
  ∀ l ∈ lanes, ∀ flat f, c.s.place c.g (who l) (va l) write = .here flat (some f) → f.cached = true ∨ x < f.pte ∨ f.pte + 8 ≤ x

/-- A memory operation `op` has issued: it is in flight under the next number with no result yet, at its place in program order. The
group at issue is now `g'`; other groups change at most the mark that their spill region was touched. Every byte satisfying `off` is
as before, and nothing else changes but the translations held. -/
structure Issues (c : Ctx) (s t : State) (g' : Group) (op : MemOp) (off : Nat → Prop) : Prop where
  ops : t.ops = Assoc.put s.nextId op s.ops
  order : op.group = c.key ∧ op.owner = c.f.mask ∧ op.po = c.g.po ∧ op.got = [] ∧ op.poisoned = false ∧ op.sent = [] ∧ op.errs = [] ∧
    op.sets = []
  group : Assoc.find c.key t.groups = some g'
  others : ∀ k, k ≠ c.key → ∃ b, Assoc.find k t.groups = (Assoc.find k s.groups).map (fun g => { g with spillTouched := b })
  bytes : ∀ x, off x → t.byte x = s.byte x
  rest : t = { s with
    ops := t.ops, groups := t.groups, mem := t.mem, tlb := t.tlb, nodes := t.nodes, nextId := s.nextId + 1, issue := none
    fresh := s.fresh + 1 }

/-- The group after it issued a memory operation: its destinations `busy`, its program order advanced, its fragment at the next word;
with `wait` it waits for replies from other chips with WAITKIND 5. Its registers and all else are unchanged, but for the translations that
its lanes hold, the chips it has stored to and the counter of remote stores. -/
structure Issuer (c : Ctx) (s : State) (g' : Group) (stall : Nat) (busy : List Reg) (wait : Prop) : Prop where
  advanced : Advanced c g' stall
  other : g'.live (!c.slot) = c.g.live (!c.slot)
  waits : wait → g'.wait = .remote s.nextId ∧ g'.waitkind = 5
  runs : ¬ wait → g'.wait = c.g.wait ∧ g'.waitkind = c.g.waitkind ∧ g'.waitSince = c.g.waitSince
  rest : g' = { c.g with
    live0 := g'.live0, live1 := g'.live1, readyAt := g'.readyAt, lastSlot := g'.lastSlot, issues := g'.issues, hazards := g'.hazards
    geoOp := g'.geoOp, spillTouched := g'.spillTouched, wait := g'.wait, waitkind := g'.waitkind, waitSince := g'.waitSince
    targets := g'.targets, ctrRemote := g'.ctrRemote, acks := g'.acks, lastPage := g'.lastPage, busy := c.g.busy ++ busy
    po := c.g.po + 1 }

/-- The accesses read, for each lane, `n` bytes from its target into the lane's result slots, and nothing else; each access serves one
sector. -/
def Reads (accs : List (Nat × Access)) (lanes : List Nat) (n : Nat) (tgt : Nat → Option Nat × Nat) : Prop :=
  (∀ x ∈ accs, ∃ cells sec, x.2.kind = .read cells ∧
    ∀ y ∈ cells, ∃ l ∈ lanes, ∃ j < n, ∃ a, tgt l = (x.2.chip, a) ∧ a / 64 = sec ∧ y = (a + j, 16 * l + j)) ∧
  ∀ l ∈ lanes, ∀ j < n, ∃ x ∈ accs, ∃ cells, x.2.kind = .read cells ∧ x.2.chip = (tgt l).1 ∧ ((tgt l).2 + j, 16 * l + j) ∈ cells

/-- The accesses write, at each target, the `n` bytes of one lane that names it, and nothing else; each access serves one sector. -/
def Writes (accs : List (Nat × Access)) (lanes : List Nat) (n : Nat) (tgt : Nat → Option Nat × Nat) (data : Nat → Nat → Byte) : Prop :=
  ∃ w : Nat → Nat, (∀ l ∈ lanes, w l ∈ lanes ∧ tgt (w l) = tgt l ∧ ∀ m ∈ lanes, tgt m = tgt l → w m = w l) ∧
    (∀ x ∈ accs, ∃ cells sec, x.2.kind = .write cells ∧
      ∀ y ∈ cells, ∃ l ∈ lanes, ∃ j < n, ∃ a, tgt l = (x.2.chip, a) ∧ a / 64 = sec ∧ y = (a + j, data (w l) j)) ∧
    ∀ l ∈ lanes, ∀ j < n, ∃ x ∈ accs, ∃ cells, x.2.kind = .write cells ∧ x.2.chip = (tgt l).1 ∧ ((tgt l).2 + j, data (w l) j) ∈ cells

/-- Some lane reaches another chip. -/
def away (lanes : List Nat) (tgt : Nat → Option Nat × Nat) : Prop := ∃ l ∈ lanes, (tgt l).1 ≠ none

/-- Lane load `i` of `n` bytes per lane into `regs` registers: where every lane reaches its place, the load issues with no trap; with
no acting lane it makes no access and only sets the tags RAW. -/
def LoadsLanes (i : Instr) (d a : BitVec 6) (off : Int) (n regs : Nat) (signed : Bool) (acq : Option (BitVec 3)) : Prop :=
  ∀ s c, Ready i s c →
    let lanes := lanesOf (c.acting i)
    let lines := (List.range regs).map (fun r => c.g.lbase + d.toNat + r)
    (lanes = [] → ∃ t g', exec i s = .next t ∧ Only c s t g' ∧ Advanced c g' 0 ∧
      Keeps c g' { v := (List.range regs).map (fun r => d.toNat + r) } ∧
      ∀ x ∈ lines, g'.tagByte x = 0 ∧ g'.line x = c.g.line x) ∧
    ∀ tgt, lanes ≠ [] → Reaches c lanes some (c.laneAddr a off) n false false tgt →
      ∃ t g' op, exec i s = .next t ∧ Issues c s t g' op (OffTables c lanes some (c.laneAddr a off) false) ∧
        Issuer c s g' 0 (lines.map Reg.v) (away lanes tgt) ∧ g'.targets = c.g.targets ∧ g'.ctrRemote = c.g.ctrRemote ∧
        op.dest = .lanes n signed lines (c.acting i) ∧ op.acquire = acq ∧ op.release = none ∧ op.flagged = false ∧
        Reads op.accs lanes n tgt

/-- Byte `j` of lane `l` of the data registers from `d`. -/
def dataByte (c : Ctx) (d : BitVec 6) (l j : Nat) : Byte := (lane (c.val d (j / 4)) l).extractLsb' (8 * (j % 4)) 8

/-- Lane store `i` of `n` bytes per lane: where every lane reaches its place, the store issues; no register and no tag changes, and no
byte is stored yet. A chip stored to enters the target set, and each access to another chip counts in the remote counter, those of an ordered
flag only when they are sent (12 R276, 20 R497). -/
def StoresLanes (i : Instr) (d a : BitVec 6) (off : Int) (n : Nat) (rel : Option (BitVec 3)) (flagged : Bool) : Prop :=
  ∀ s c, Ready i s c →
    let lanes := lanesOf (c.acting i)
    (lanes = [] → ∃ t g', exec i s = .next t ∧ Only c s t g' ∧ Advanced c g' 0 ∧ Keeps c g' {}) ∧
    ∀ tgt, lanes ≠ [] → Reaches c lanes some (c.laneAddr a off) n true false tgt →
      ∃ t g' op, exec i s = .next t ∧ Issues c s t g' op (OffTables c lanes some (c.laneAddr a off) true) ∧
        Issuer c s g' 0 [] False ∧
        (∀ ch, Assoc.get false g'.targets ch = true ↔ Assoc.get false c.g.targets ch = true ∨ ∃ l ∈ lanes, (tgt l).1 = some ch) ∧
        g'.ctrRemote = c.g.ctrRemote + (if flagged then 0 else BitVec.ofNat 16 (op.accs.filter (fun x => x.2.chip.isSome)).length) ∧
        op.dest = .none ∧ op.acquire = none ∧ op.release = rel ∧ op.flagged = flagged ∧ Writes op.accs lanes n tgt (dataByte c d)

/-- Atomic `i` on `n` bytes per lane: one read-modify-write access per lane, in the order of the lanes, an acquire and a release at
its scope; the destination is busy until the old values return. -/
def AtomicLanes (i : Instr) (d a : BitVec 6) (n : Nat) (sc : BitVec 3) (ok : Ctx → Prop) (op : Ctx → Nat → Rmw) : Prop :=
  ∀ s c tgt, Ready i s c → ok c →
    let lanes := lanesOf c.f.mask
    let lines := (List.range (n / 4)).map (fun r => c.g.lbase + d.toNat + r)
    Reaches c lanes some (c.laneAddr a 0) n true true tgt →
      ∃ t g' o, exec i s = .next t ∧ Issues c s t g' o (OffTables c lanes some (c.laneAddr a 0) true) ∧
        Issuer c s g' 0 (lines.map Reg.v) (away lanes tgt) ∧ g'.ctrRemote = c.g.ctrRemote ∧ g'.targets = c.g.targets ∧
        o.dest = .lanes n false lines c.f.mask ∧ o.acquire = some sc ∧ o.release = some sc ∧
        o.accs = numbered (lanes.map (fun l => { chip := (tgt l).1, kind := .rmw (tgt l).2 n (16 * l) (op c l) }))

/-- Lane `l`'s operand of an `n`-byte atomic. -/
def atomOperand (c : Ctx) (x : BitVec 6) (n l : Nat) : BitVec 64 :=
  if n = 8 then lane (c.val x 1) l ++ lane (c.val x 0) l else (lane (c.val x 0) l).zeroExtend 64

/-- The tags of vB that ATOM accepts (15 R343): for ADD, MIN and MAX the float format of the size, U32, RAW or I32, and for the others
any assigned one; both registers of a pair carry the same. -/
def atomTagsOk (n : Nat) (o : BitVec 3) (b : BitVec 6) (c : Ctx) : Prop :=
  c.takes b (n / 4) (fun t => if o.toNat < 3 then decide (t = (if n = 8 then 0x04 else 0x03) ∨ t = 0x02 ∨ t = 0x00 ∨ t = 0x01)
    else assignedTag t) ∧ (n = 8 → c.tagOf b 0 = c.tagOf b 1)

/-- The form that vB's tag selects: unsigned for U32, float for FP32 and FP64, signed otherwise and for a broadcast register. -/
def atomKind (c : Ctx) (b : BitVec 6) : AtomForm :=
  if c.tagOf b = some 0x02 then .unsigned else if c.tagOf b = some 0x03 ∨ c.tagOf b = some 0x04 then .float else .signed

/-- A uniform address: a pair of registers plus an immediate, modulo 2^64. -/
def uniformAddress (c : Ctx) (a : BitVec 5) (im : Int) : Nat := (((c.k (a.toNat + 1) ++ c.k a.toNat).toNat : Int) + im).emod (2 ^ 64) |>.toNat

/-- Uniform access `i` of `n` bytes at `va`: as for lanes, with the single access of result lane 0, no lane of its own, and LANES 0. -/
def UniformAccess (i : Instr) (va : Ctx → Nat) (n : Nat) (write atomic : Bool) (busy : List Reg) (stall : Nat) (store : Bool)
    (tells : Ctx → MemOp → (Option Nat × Nat) → Prop) : Prop :=
  ∀ s c tgt, Ready i s c → Reaches c [0] (fun _ => none) (fun _ => va c) n write atomic (fun _ => tgt) →
    ∃ t g' op, exec i s = .next t ∧ Issues c s t g' op (OffTables c [0] (fun _ => none) (fun _ => va c) write) ∧
      Issuer c s g' stall busy (store = false ∧ tgt.1 ≠ none) ∧
      (∀ ch, Assoc.get false g'.targets ch = true ↔ Assoc.get false c.g.targets ch = true ∨ store = true ∧ tgt.1 = some ch) ∧
      g'.ctrRemote = c.g.ctrRemote + (if store = true ∧ tgt.1 ≠ none then 1 else 0) ∧ tells c op tgt

end Sys2Proof.Claims

/-- 17 R411 to R413, R415: the lane loads, LDA as an acquire at its scope. -/
def Sys2Proof.Claims.LaneLoadsIssue : Prop :=
  ∀ (d a : BitVec 6) (o : BitVec 9) (g c : BitVec 3) (w : BitVec 2),
    LoadsLanes (.ldB d a o g) d a o.toInt 1 1 false none ∧
    LoadsLanes (.ldBs d a o g) d a o.toInt 1 1 true none ∧
    LoadsLanes (.ldH d a o g) d a o.toInt 2 1 false none ∧
    LoadsLanes (.ldHs d a o g) d a o.toInt 2 1 true none ∧
    LoadsLanes (.ldW d a o g) d a o.toInt 4 1 false none ∧
    LoadsLanes (.ldNt d a o g) d a o.toInt 4 1 false none ∧
    LoadsLanes (.ldD d a o g) d a o.toInt 8 2 false none ∧
    LoadsLanes (.ldQ d a o g) d a o.toInt 16 4 false none ∧
    LoadsLanes (.lda d a c w g) d a 0 (4 * 2 ^ w.toNat) (2 ^ w.toNat) false (some c)

/-- 18 R455, R456, R458, R459: the lane stores, ST.OF as an ordered flag, STL as a release at its scope. -/
def Sys2Proof.Claims.LaneStoresIssue : Prop :=
  ∀ (d a : BitVec 6) (o : BitVec 9) (g c : BitVec 3) (w : BitVec 2),
    StoresLanes (.stB d a o g) d a o.toInt 1 none false ∧
    StoresLanes (.stH d a o g) d a o.toInt 2 none false ∧
    StoresLanes (.stW d a o g) d a o.toInt 4 none false ∧
    StoresLanes (.stD d a o g) d a o.toInt 8 none false ∧
    StoresLanes (.stQ d a o g) d a o.toInt 16 none false ∧
    StoresLanes (.stOf d a w g) d a 0 (4 * 2 ^ w.toNat) none true ∧
    StoresLanes (.stl d a c w g) d a 0 (4 * 2 ^ w.toNat) (some c) false

/-- 15 R341 to R344, R358: ATOM and CAS make one access per lane of the fragment and return the old values. -/
def Sys2Proof.Claims.LaneAtomicsIssue : Prop :=
  ∀ (d a b : BitVec 6) (sc o : BitVec 3),
    AtomicLanes (.atomW d a b sc o) d a 4 sc (atomTagsOk 4 o b) (fun c l => .atom o (atomKind c b) (atomOperand c b 4 l) l) ∧
    AtomicLanes (.atomD d a b sc o) d a 8 sc (atomTagsOk 8 o b) (fun c l => .atom o (atomKind c b) (atomOperand c b 8 l) l) ∧
    AtomicLanes (.casW d a b sc) d a 4 sc (fun _ => True) (fun c l => .cas (atomOperand c d 4 l) (atomOperand c b 4 l)) ∧
    AtomicLanes (.casD d a b sc) d a 8 sc (fun _ => True) (fun c l => .cas (atomOperand c d 8 l) (atomOperand c b 8 l))

/-- 18 R467, 15 R345, R359: the uniform loads, stores and atomics. -/
def Sys2Proof.Claims.UniformAccessesIssue : Prop :=
  ∀ (d a b e : BitVec 5) (im : BitVec 11) (st sc o : BitVec 3),
    let va := fun c => uniformAddress c a im.toInt
    let loads := fun n ks (_ : Ctx) (op : MemOp) tgt =>
      op.dest = .uniform n ks ∧ op.acquire = none ∧ op.release = none ∧ Reads op.accs [0] n (fun _ => tgt)
    let stores := fun n (c : Ctx) (op : MemOp) tgt =>
      op.dest = .none ∧ op.acquire = none ∧ op.release = none ∧
      Writes op.accs [0] n (fun _ => tgt) (fun _ j => (c.k (d.toNat + j / 4)).extractLsb' (8 * (j % 4)) 8)
    let atomic := fun f (c : Ctx) (op : MemOp) (tgt : Option Nat × Nat) =>
      op.dest = .uniform 4 [d.toNat] ∧ op.acquire = some sc ∧ op.release = some sc ∧
      op.accs = numbered [{ chip := tgt.1, kind := .rmw tgt.2 4 0 (f c) }]
    UniformAccess (.uldB d a im st) va 1 false false [.k d.toNat] st.toNat false (loads 1 [d.toNat]) ∧
    UniformAccess (.uldH d a im st) va 2 false false [.k d.toNat] st.toNat false (loads 2 [d.toNat]) ∧
    UniformAccess (.uldW d a im st) va 4 false false [.k d.toNat] st.toNat false (loads 4 [d.toNat]) ∧
    UniformAccess (.uldD d a im st) va 8 false false [.k d.toNat, .k (d.toNat + 1)] st.toNat false (loads 8 [d.toNat, d.toNat + 1]) ∧
    UniformAccess (.ustB d a im st) va 1 true false [] st.toNat true (stores 1) ∧
    UniformAccess (.ustH d a im st) va 2 true false [] st.toNat true (stores 2) ∧
    UniformAccess (.ustW d a im st) va 4 true false [] st.toNat true (stores 4) ∧
    UniformAccess (.ustD d a im st) va 8 true false [] st.toNat true (stores 8) ∧
    UniformAccess (.atomu d a b o sc) (fun c => uniformAddress c a 0) 4 true true [.k d.toNat] 0 false
      (atomic (fun c => .atom o .signed ((c.kf b).zeroExtend 64) 0)) ∧
    UniformAccess (.casu d a b e sc) (fun c => uniformAddress c a 0) 4 true true [.k d.toNat] 0 false
      (atomic (fun c => .cas ((c.kf e).zeroExtend 64) ((c.kf b).zeroExtend 64)))

namespace Sys2Proof.Claims

/-- What software sees of a group's registers: lane lines, tags, uniform registers, predicates, tiles, fragments, stacks, float flags and
rounding mode. -/
def registers (g : Group) :=
  (g.lines, g.ltags, g.k, g.p, g.q, g.tiles, g.live0, g.live1, g.dstack, g.wstack, g.lbase, g.fexc, g.mode)

/-- No register of any group changes, and no group comes or goes. -/
def SameRegisters (s t : State) : Prop := ∀ key, (Assoc.find key t.groups).map registers = (Assoc.find key s.groups).map registers

/-- The byte at `x` after the cells are stored in order over what `old` was. -/
def overwritten (cells : List Host.Cell) (x : Nat) (old : Byte) : Byte :=
  match cells.reverse.find? (fun c => decide (c.1 = x)) with | some c => c.2 | none => old

/-- The word that register `r` of lane `l` receives from an operation's result bytes: up to four bytes, the lowest first, zero- or
sign-extended. -/
def resultWord (o : MemOp) (size : Nat) (signed : Bool) (l r : Nat) : Word :=
  let b := fun j => Assoc.get 0 o.got (16 * l + 4 * r + j)
  if size = 1 then (if signed then (b 0).signExtend 32 else (b 0).zeroExtend 32)
  else if size = 2 then (if signed then (b 1 ++ b 0).signExtend 32 else (b 1 ++ b 0).zeroExtend 32)
  else b 3 ++ b 2 ++ b 1 ++ b 0

/-- Group `g` has received the results of operation `o` as `g'`: its destination lines take, in the lanes that loaded, the loaded
values, and keep the others; their tags are RAW; uniform destinations take their words; the destinations are no longer busy; a group
that waited for the operation waits no more, one stopped by STOP keeping its WAITKIND; and nothing else changes but what its accesses have seen
of memory. -/
def Received (g g' : Group) (id : Nat) (o : MemOp) : Prop :=
  (match o.dest with
   | .none => g'.lines = g.lines ∧ g'.ltags = g.ltags ∧ g'.k = g.k ∧ g'.busy = g.busy
   | .lanes size signed lines act =>
     size ∈ [1, 2, 4, 8, 16] → (lines.map (fun n => n % 256)).Nodup → g'.k = g.k ∧
     (∀ n r, lines[r]? = some n → g'.tagByte n = 0 ∧ Reg.v n ∉ g'.busy ∧
       ∀ l : Fin 32, (g'.line n)[l] = if act.getLsbD l.val then resultWord o size signed l.val r else (g.line n)[l]) ∧
     (∀ n, (∀ x ∈ lines, n % 256 ≠ x % 256) → g'.line n = g.line n) ∧ (∀ n, n ∉ lines → g'.tagByte n = g.tagByte n) ∧
     ∀ r, (∀ n ∈ lines, r ≠ .v n) → (r ∈ g'.busy ↔ r ∈ g.busy)
   | .uniform size ks =>
     size ∈ [1, 2, 4, 8] → ks.Nodup → g'.lines = g.lines ∧ g'.ltags = g.ltags ∧
     (∀ n r, ks[r]? = some n → n < 32 → g'.kreg n = resultWord o size false 0 r ∧ Reg.k n ∉ g'.busy) ∧
     (∀ n, n ∉ ks → g'.kreg n = g.kreg n) ∧ ∀ r, (∀ n ∈ ks, r ≠ .k n) → (r ∈ g'.busy ↔ r ∈ g.busy)) ∧
  (g.wait = .remote id → g'.wait = .none ∧ g'.waitkind = (if g.stop = .commanded then g.waitkind else 0) ∧
    g'.waitaddr = (if g.stop = .commanded then g.waitaddr else 0)) ∧
  (g.wait ≠ .remote id → g'.wait = g.wait ∧ g'.waitkind = g.waitkind ∧ g'.waitaddr = g.waitaddr) ∧
  g' = { g with
    lines := g'.lines, ltags := g'.ltags, k := g'.k, busy := g'.busy, hazards := g'.hazards, frec := g'.frec, imgPoison := g'.imgPoison
    wait := g'.wait, waitkind := g'.waitkind, waitaddr := g'.waitaddr, readyAt := g'.readyAt, readySince := g'.readySince
    order := g'.order, absent := g'.absent }

/-- Access `n` of operation `o`, numbered `id`, is the step's input and may take effect in this module: local order and shackles leave it
free, and an ordered flag or a release at pod scope waits for no ticket of its group. -/
structure Effective (s : State) (id n : Nat) (o : MemOp) (a : Access) : Prop where
  input : s.input = .two id n
  op : Assoc.find id s.ops = some o
  acc : Assoc.find n o.accs = some a
  local_ : a.chip = none
  ready : s.accessReady id o a = true
  tickets : s.ticketsBlock id o = false

end Sys2Proof.Claims

/-- 09 R192, R193, 18 R456: a store's access stores its bytes, all at once, and changes no other byte and no register; an operation
all of whose accesses have been made is over. What stood there before is kept as the past of memory, from which loads that nothing orders
after the store may still read; an open load that the store passes notes it. Software that stores into an object in use is apart (02 R34; 08
R165, R173). -/
def Sys2Proof.Claims.StoreTakesEffect : Prop :=
  ∀ s id n o a cells, Effective s id n o a → a.kind = .write cells → s.spoiled cells = [] → o.dest = .none → o.errs = [] →
    ∃ t, exec .accessTakesEffect s = .next t ∧ (∀ x, t.byte x = overwritten cells x (s.byte x)) ∧ SameRegisters s t ∧
      (∃ m, t.hist = m :: s.hist ∧ m.time = s.tick ∧ m.old = cells.map (fun c => (c.1, s.byte c.1))) ∧
      (∀ k, k ≠ id → ∃ p : MemOp → List Seen, Assoc.find k t.ops = (Assoc.find k s.ops).map (fun e => { e with passed := p e })) ∧
      Assoc.find id t.ops = (if Assoc.del n o.accs = [] ∧ o.sent = [] then none else some { o with accs := Assoc.del n o.accs }) ∧
      t.input = .none ∧ t.agenda = s.agenda ∧ t.ctl = s.ctl ∧ t.launches = s.launches ∧ t.units = s.units ∧ t.parts = s.parts ∧ t.tlb = s.tlb

/-- 09 R192, R202, R203, 10 R229, 17 R412: a load's access collects its bytes, all as they stood after one moment that is no earlier than
what binds the load; so those that no store has changed since are what memory holds now. It notes poison, and changes no memory and no
register: only what is known of the order of accesses. (Which of several such moments it reads from is a free choice: the model's, log 10.) -/
def Sys2Proof.Claims.LoadReadsMemory : Prop :=
  ∀ s id n o a cells g, Effective s id n o a → a.kind = .read cells → o.dest ≠ .none → Assoc.find o.group s.groups = some g →
    ∃ t got r, exec .accessTakesEffect s = .next t ∧
      t = { s with
        input := .none, fresh := s.fresh + 1, groups := t.groups, msgs := t.msgs, copies := t.copies, hist := t.hist
        ops := Assoc.put id { o with
          accs := Assoc.del n o.accs, got := got, poisoned := o.poisoned || cells.any (fun c => s.poisoned c.1) } s.ops } ∧
      (∀ k, ∃ p : Group → Order, Assoc.find k t.groups = (Assoc.find k s.groups).map (fun h => { h with order := p h })) ∧
      (∀ k, ∃ (v : CopyOp → View) (f : CopyOp → Nat), Assoc.find k t.copies = (Assoc.find k s.copies).map (fun x => { x with view := v x, floor := f x })) ∧
      t.hist.map (fun m => { m with outside := false }) = s.hist.map (fun m => { m with outside := false }) ∧
      t.msgs.map (fun m => { m with view := {} }) = s.msgs.map (fun m => { m with view := {} }) ∧ s.loadFloor g o (cells.map (fun c => c.1)) ≤ r ∧
      ((cells.map (fun c => c.2)).Nodup → ∀ c ∈ cells, Assoc.get 0 got c.2 = s.pastByte c.1 r ∧
        ((∀ m ∈ s.hist, r < m.time → m.wrote c.1 = false) → Assoc.get 0 got c.2 = s.byte c.1)) ∧
      ((∀ m ∈ s.hist, s.loadFloor g o (cells.map (fun c => c.1)) < m.time → ∀ c ∈ cells, m.wrote c.1 = false) →
        r = s.loadFloor g o (cells.map (fun c => c.1))) ∧
      ∀ slot, (∀ c ∈ cells, c.2 ≠ slot) → Assoc.get 0 got slot = Assoc.get 0 o.got slot

/-- 17 R412, R413, 10 R229: a load whose accesses have all been made returns its data: the destinations take the bytes collected and are
free. Poisoned data marks each destination register instead of giving it a value. -/
def Sys2Proof.Claims.LoadDataReturns : Prop :=
  ∀ s id o g, s.input = .one id → Assoc.find id s.ops = some o → o.accs = [] → o.sent = [] → o.errs = [] →
    Assoc.find o.group s.groups = some g →
    ∃ t g', exec .loadDataReturn s = .next t ∧
      t = { s with input := .none, ops := Assoc.del id s.ops, groups := Assoc.put o.group g' s.groups, fresh := t.fresh } ∧
      (o.poisoned = false → t.fresh = s.fresh ∧ Received g g' id o) ∧
      (o.poisoned = true →
        (∀ size sg lines act, o.dest = .lanes size sg lines act → ∀ n ∈ lines, n - g.lbase < 64 →
          g'.frec.ppoisv.getLsbD (n - g.lbase) = true ∧ g'.tagByte n = 0 ∧ Reg.v n ∉ g'.busy) ∧
        (∀ size ks, o.dest = .uniform size ks → ∀ n ∈ ks, n < 32 → g'.frec.ppoisk.getLsbD n = true ∧ Reg.k n ∉ g'.busy))

/-- 08 R182, R183, 09 R204: a read-modify-write reads the old value and, as one access, stores the new one where there is one; the old
value becomes its lane's result, and the last access of the operation delivers the results. -/
def Sys2Proof.Claims.AtomicTakesEffect : Prop :=
  ∀ s id n o a addr size slot op g, Effective s id n o a → a.kind = .rmw addr size slot op → size = 4 ∨ size = 8 →
    (∀ x, s.spoiled (cellsOf addr size x) = []) → o.errs = [] → o.poisoned = false → s.poisoned addr = false →
    Assoc.find o.group s.groups = some g → g.matrixOp = none →
    ∃ t o', exec .accessTakesEffect s = .next t ∧
      (∀ x, t.byte x = match op.new size o.pcword (s.nat addr size) with
        | some v => if addr ≤ x ∧ x < addr + size then BitVec.ofNat 8 (v / 2 ^ (8 * (x - addr))) else s.byte x
        | none => s.byte x) ∧
      o' = { o with accs := Assoc.del n o.accs, got := o'.got } ∧
      (∀ j < size, Assoc.get 0 o'.got (slot + j) = s.byte (addr + j)) ∧
      (∀ k, (k < slot ∨ slot + size ≤ k) → Assoc.get 0 o'.got k = Assoc.get 0 o.got k) ∧
      (if o'.accs = [] ∧ o.sent = [] then
         Assoc.find id t.ops = none ∧ ∃ g', Assoc.find o.group t.groups = some g' ∧ Received g g' id o'
       else Assoc.find id t.ops = some o' ∧ SameRegisters s t)

/-- 08 R182, R183: the new value of each atomic operation on a word of 32 bits, or of 64 bits. CAS stores B where old is the expected
value and otherwise nothing. -/
def Sys2Proof.Claims.AtomicOperations : Prop :=
  ∀ (n old b e l : Nat) (pc : BitVec 22) (f : AtomForm), n = 4 ∨ n = 8 → old < 2 ^ (8 * n) → b < 2 ^ (8 * n) → e < 2 ^ (8 * n) →
    let new := fun (o : BitVec 3) f => (Rmw.atom o f (BitVec.ofNat 64 b) l).new n pc old
    new 0 .signed = some ((old + b) % 2 ^ (8 * n)) ∧ new 0 .unsigned = some ((old + b) % 2 ^ (8 * n)) ∧
    new 1 .unsigned = some (min old b) ∧ new 2 .unsigned = some (max old b) ∧
    (∃ x, new 1 .signed = some x ∧ (x = old ∨ x = b) ∧ signedOf (8 * n) x = min (signedOf (8 * n) old) (signedOf (8 * n) b)) ∧
    (∃ x, new 2 .signed = some x ∧ (x = old ∨ x = b) ∧ signedOf (8 * n) x = max (signedOf (8 * n) old) (signedOf (8 * n) b)) ∧
    new 3 f = some (old &&& b) ∧ new 4 f = some (old ||| b) ∧ new 5 f = some (old ^^^ b) ∧ new 6 f = some b ∧
    new 7 f = some (if b ≤ old then 0 else old + 1) ∧
    (Rmw.cas (BitVec.ofNat 64 e) (BitVec.ofNat 64 b)).new n pc old = (if old = e then some b else none)

/-- 09 R196, R197, 12 R274: an access does not take effect while an operation that precedes it in its fragment's program order has, still to
be made, an access to a byte in common; is an acquire, unless a narrow one before a plain store; is to pass a release at dev scope or wider, or
one that goes to another chip; is itself such a release before such an acquire; is a store before a FENCER that stands between them; or stores
in this module before an ordered flag of this module. The replies of other chips count as well for an acquire, at pod scope, and for a release
before an acquire. Nothing changes then. (That a narrower release of this module carries what has not taken effect, instead of waiting for it,
and that a plain store may pass a narrower acquire, is the model's choice: log 10.) -/
def Obligations.LocalOrder : Prop :=
  ∀ s id n o a k e, s.input = .two id n → Assoc.find id s.ops = some o → Assoc.find n o.accs = some a → (k, e) ∈ s.ops → k ≠ id →
    e.group = o.group → e.po < o.po → e.owner &&& o.owner ≠ 0 →
    let wide := fun x : Option (BitVec 3) => ∃ sc, x = some sc ∧ 3 ≤ sc.toNat
    ((∃ x ∈ e.accs, ∃ y ∈ x.2.addrs, y ∈ a.addrs ∧ x.2.chip = a.chip) ∨
     (e.acquire ≠ none ∧ (e.accs ≠ [] ∨ e.sent ≠ []) ∧
       (wide e.acquire ∨ e.release ≠ none ∨ o.dest ≠ .none ∨ o.release ≠ none ∨ o.acquire ≠ none ∨ o.flagged = true)) ∨
     ((wide o.release ∨ (o.release ≠ none ∧ a.chip ≠ none)) ∧ e.accs ≠ []) ∨ (o.release = some 5 ∧ e.sent ≠ []) ∨
     (wide e.release ∧ wide o.acquire ∧ (e.accs ≠ [] ∨ e.sent ≠ [])) ∨
     (e.po < o.after ∧ e.dest = .none ∧ e.accs ≠ []) ∨
     (o.flagged = true ∧ a.chip = none ∧ ∃ x ∈ e.accs, x.2.chip = none ∧ x.2.writes = true)) →
    exec .accessTakesEffect s = .next { s with input := .none }

/-- 17 R412, 18 R456, 10 R222: a lane load or store with a misaligned lane traps, whatever the other lanes' addresses: KIND 0x06, with the
address of the lowest misaligned lane and the mask of them all. -/
def Sys2Proof.Claims.MisalignedLanesTrap : Prop :=
  ∀ (d a : BitVec 6) (o : BitVec 9) (g : BitVec 3) s c,
    let trap := fun (va : Nat → Nat) n write act l => groupStop s c.key c.slot c.f.pc
      { kind := 0x06, write := write, addr := va l, lanes := maskOf (fun m => act.getLsbD m && decide (va m % n ≠ 0)) }
    let va := c.laneAddr a o.toInt
    let traps := fun i n write => Ready i s c → ∀ l ∈ lanesOf (c.acting i), va l % n ≠ 0 →
      (∀ m ∈ lanesOf (c.acting i), m < l → va m % n = 0) → exec i s = .next (trap va n write (c.acting i) l)
    traps (.ldH d a o g) 2 false ∧ traps (.ldHs d a o g) 2 false ∧ traps (.ldW d a o g) 4 false ∧ traps (.ldNt d a o g) 4 false ∧
    traps (.ldD d a o g) 8 false ∧ traps (.ldQ d a o g) 16 false ∧ traps (.stH d a o g) 2 true ∧ traps (.stW d a o g) 4 true ∧
    traps (.stD d a o g) 8 true ∧ traps (.stQ d a o g) 16 true ∧
    ∀ (b : BitVec 6) (sc op : BitVec 3) (w : BitVec 2),
      let here := fun i n write => Ready i s c → ∀ l ∈ lanesOf (c.acting i), c.laneAddr a 0 l % n ≠ 0 →
        (∀ m ∈ lanesOf (c.acting i), m < l → c.laneAddr a 0 m % n = 0) →
        exec i s = .next (trap (c.laneAddr a 0) n write (c.acting i) l)
      here (.lda d a sc w g) (4 * 2 ^ w.toNat) false ∧ here (.stl d a sc w g) (4 * 2 ^ w.toNat) true ∧
      here (.stOf d a w g) (4 * 2 ^ w.toNat) true ∧ here (.casW d a b sc) 4 true ∧ here (.casD d a b sc) 8 true ∧
      (atomTagsOk 4 op b c → here (.atomW d a b sc op) 4 true) ∧ (atomTagsOk 8 op b c → here (.atomD d a b sc op) 8 true)

namespace Sys2Proof.Claims

/-- Group `g'` is `h` with the issuing fragment at `pc` and the stall count of the issue. -/
def Became (c : Ctx) (g' h : Group) (pc : Pc) (stall : Nat) : Prop :=
  g'.live c.slot = { h.live c.slot with pc := pc } ∧ g'.live (!c.slot) = h.live (!c.slot) ∧ g'.readyAt = c.now + 1 + stall ∧
  g' = { h with live0 := g'.live0, live1 := g'.live1, readyAt := g'.readyAt, lastSlot := g'.lastSlot, issues := g'.issues, hazards := g'.hazards, geoOp := g'.geoOp }

/-- Instruction `i`, where it is ready and `ok` holds, moves its fragment to `pc`, leaves its group as `h` apart from that, and changes
nothing else. -/
def Moves (i : Instr) (ok : Ctx → Prop) (h : Ctx → Group) (pc : Ctx → Pc) (stall : Nat) : Prop :=
  ∀ s c, Ready i s c → ok c → ∃ t g', exec i s = .next t ∧ Only c s t g' ∧ Became c g' (h c) (pc c) stall

/-- Instruction `i`, where it is ready and `ok` holds, takes trap `t`. -/
def Traps (i : Instr) (ok : Ctx → Prop) (t : Ctx → Trap) : Prop :=
  ∀ s c, Ready i s c → ok c → exec i s = .next (groupStop s c.key c.slot c.f.pc (t c))

/-- Word `n + 1 + off` of the current overlay, and whether it lies in the overlay (14 R325). -/
def wordAt (c : Ctx) (off : Int) : Pc := ⟨c.f.pc.ovl, BitVec.ofInt 14 ((c.f.pc.off.toNat : Int) + 1 + off), false⟩
def wordIn (c : Ctx) (off : Int) : Prop :=
  0 ≤ (c.f.pc.off.toNat : Int) + 1 + off ∧ (c.f.pc.off.toNat : Int) + 1 + off < c.overlayWords

/-- Word kA of the current overlay. -/
def wordOf (c : Ctx) (a : BitVec 5) : Pc := ⟨c.f.pc.ovl, (c.kf a).extractLsb' 0 14, false⟩
def wordOfIn (c : Ctx) (a : BitVec 5) : Prop := (c.kf a).toNat < 2 ^ 14 ∧ (c.kf a).toNat < c.overlayWords

/-- A window record (04 R84): return address, frame code, kind. -/
def record (pc : Pc) (fr : BitVec 3) (kind : BitVec 2) : BitVec 64 :=
  (0 : BitVec 37) ++ kind ++ fr ++ (if pc.past then 0 else pc.off) ++ pc.ovl

/-- Record `n` of the window stack, and its fields. -/
def wrec (g : Group) (n : Nat) : BitVec 64 := Assoc.get (0 : BitVec 64) g.wstack n
def wrecPc (r : BitVec 64) : Pc := ⟨r.extractLsb' 0 8, r.extractLsb' 8 14, false⟩

/-- A window instruction may slide: the group is one fragment, no window register awaits poisoned data. (Lane results in flight hold it
back; it is then not ready.) -/
structure Slides (c : Ctx) : Prop where
  whole : c.g.sptr = 0 ∧ c.g.live1.kind ≠ 1
  sound : ∀ n < 48, c.g.frec.ppoisv.getLsbD n = false

/-- Where the live lanes' words of the logical lines from `lo` to below `hi` stand in lane-private memory: each is checked and
reaches `at_ n l`, in no shackled line and in nothing that the group's matrix instruction has still to read when it is stored to. -/
def PrivateAt (c : Ctx) (lo hi : Nat) (write : Bool) (at_ : Nat → Nat → Nat) : Prop :=
  ∀ n, lo ≤ n → n < hi → ∀ l ∈ lanesOf (~~~c.g.exited),
    let va := c.s.lanePrivate c.g l + 4 * n
    ∃ f, (translate c.s c.g none va write).place c.s va write = Place.here (at_ n l) f ∧
      (write = false → c.s.poisoned (at_ n l) = false) ∧
      (write = true → c.s.shackled (at_ n l) = false ∧ c.g.readsStill [at_ n l] = false)

/-- Byte `x` lies outside the words that the live lanes have in those lines, and outside the tables that translate them. -/
def OffPrivate (c : Ctx) (lo hi : Nat) (write : Bool) (words : Bool) (at_ : Nat → Nat → Nat) (x : Nat) : Prop :=
  ∀ n, lo ≤ n → n < hi → ∀ l ∈ lanesOf (~~~c.g.exited),
    let va := c.s.lanePrivate c.g l + 4 * n
    (words = true → x < at_ n l ∨ at_ n l + 4 ≤ x) ∧
    ∀ flat f, (translate c.s c.g none va write).place c.s va write = Place.here flat (some f) →
      f.cached = true ∨ x < f.pte ∨ f.pte + 8 ≤ x

/-- A slide up of frame code `fr` (04 R85, R86): lines from RESLO to below `need` are spilled to lane-private memory, a record is pushed,
the window moves, and the fragment goes to `pc`, with its stall count from then on. The registers above those that the callee shares with
its caller are undefined; all other
lines keep their values. -/
def SlidesUp (i : Instr) (fr : BitVec 3) (kind : BitVec 2) (ok : Ctx → Prop) (ret pc : Ctx → Pc) (stall : Nat) : Prop :=
  ∀ s c at_, Ready i s c → ok c → Slides c → c.g.wdepth < 255 →
    let nb := c.g.lbase + 8 * (fr.toNat + 1)
    let need := nb + 48 - 256
    PrivateAt c c.g.reslo need true at_ →
    ∃ t g', exec i s = .next t ∧
      t = { s with
        groups := Assoc.put c.key g' s.groups, mem := t.mem, hist := t.hist, poison := t.poison, tlb := t.tlb, nodes := t.nodes
        issue := none, fresh := s.fresh + 1 } ∧
      (∀ x, OffPrivate c c.g.reslo need true true at_ x → t.byte x = s.byte x) ∧
      Became c g' { c.g with
        reslo := max c.g.reslo need, wstack := g'.wstack, wdepth := c.g.wdepth + 1, lbase := nb, lines := g'.lines } (pc c) stall ∧
      (∀ n, (∀ m, c.g.lbase + 48 ≤ m → m < nb + 48 → n % 256 ≠ m % 256) → g'.line n = c.g.line n) ∧
      wrec g' c.g.wdepth = record (ret c) fr kind ∧ ∀ n, n ≠ c.g.wdepth → wrec g' n = wrec c.g n

/-- The words of a slide up stand in lane-private memory afterwards, where it shares no byte with another of them. -/
def Spills (i : Instr) (fr : BitVec 3) (ok : Ctx → Prop) : Prop :=
  ∀ s c at_ n l t, Ready i s c → ok c → Slides c → c.g.wdepth < 255 →
    let need := c.g.lbase + 8 * (fr.toNat + 1) + 48 - 256
    PrivateAt c c.g.reslo need true at_ → exec i s = .next t → c.g.reslo ≤ n → n < need → l ∈ lanesOf (~~~c.g.exited) →
    (∀ m k, c.g.reslo ≤ m → m < need → k ∈ lanesOf (~~~c.g.exited) → (m, k) ≠ (n, l) →
      at_ m k + 4 ≤ at_ n l ∨ at_ n l + 4 ≤ at_ m k) →
    t.nat (at_ n l) 4 = (lane (c.g.line n) l).toNat

/-- A slide down over a record of `kind` (04 R85): lines from the new base to below RESLO are filled from lane-private memory in the
live lanes, the record is popped, the window moves back. -/
def SlidesDown (i : Instr) (kind : BitVec 2) (pc : Ctx → Pc) (stall : Nat) : Prop :=
  ∀ s c at_, Ready i s c → Slides c → c.g.wdepth ≠ 0 →
    let r := wrec c.g (c.g.wdepth - 1)
    let nb := c.g.lbase - 8 * ((r.extractLsb' 22 3).toNat + 1)
    r.extractLsb' 25 2 = kind → PrivateAt c nb c.g.reslo false at_ →
    ∃ t g', exec i s = .next t ∧
      t = { s with
        groups := Assoc.put c.key g' s.groups, mem := t.mem, tlb := t.tlb, nodes := t.nodes, issue := none, fresh := s.fresh + 1 } ∧
      (∀ x, OffPrivate c nb c.g.reslo false false at_ x → t.byte x = s.byte x) ∧
      Became c g' { c.g with
        lines := g'.lines, reslo := min c.g.reslo nb, wdepth := c.g.wdepth - 1, lbase := nb } (pc c) stall ∧
      (c.g.spillTouched = false → c.g.reslo ≤ nb + 256 → ∀ n, nb ≤ n → n < c.g.reslo → ∀ l ∈ lanesOf (~~~c.g.exited),
        lane (g'.line n) l = BitVec.ofNat 32 (s.nat (at_ n l) 4)) ∧
      ∀ n, (∀ m, nb ≤ m → m < c.g.reslo → n % 256 ≠ m % 256) → g'.line n = c.g.line n

/-- The overlay slot that holds overlay `o` for the group at issue has finished loading and has `words` words. -/
def Loaded (c : Ctx) (o : BitVec 8) (words : Nat) : Prop :=
  ∃ t, c.s.overlay c.g o = some t ∧ t.loading = none ∧ t.size / 4 = words

/-- The overlay slot that holds overlay `o` for the group at issue is still loading. -/
def Loads (c : Ctx) (o : BitVec 8) : Prop := ∃ t, c.s.overlay c.g o = some t ∧ t.loading ≠ none

end Sys2Proof.Claims

/-- 17 R427, R437, 18 R472: NOP and PREF change nothing but the program counter. YIELD makes its group the youngest of its partition, and
swaps it out when a ready group of the core waits for a slot and none is free, behind which it then waits, and not when no group waits. -/
def Sys2Proof.Claims.NopPrefYield : Prop :=
  ∀ (st g q' : BitVec 3) (l : BitVec 1) (a : BitVec 6) (o : BitVec 9) (q : BitVec 2),
    Moves (.nop st) (fun _ => True) (fun c => c.g) (fun c => c.f.pc.next) st.toNat ∧
    Moves (.pref l a o g) (fun _ => True) (fun c => c.g) (fun c => c.f.pc.next) 0 ∧
    ∀ s c, Ready (.yield q q') s c →
      ∃ t g', exec (.yield q q') s = .next t ∧
        t = { s with groups := Assoc.put c.key g' s.groups, parts := t.parts, issue := none, fresh := s.fresh + 1 } ∧
        (∀ p, t.part p = if p = c.g.partNo then { s.part p with nextAge := (s.part p).nextAge + 1 } else s.part p) ∧
        Became c g' { c.g with
          age := (s.part c.g.partNo).nextAge, resident := g'.resident, lastPage := g'.lastPage, readySince := g'.readySince } c.f.pc.next q'.toNat ∧
        (g'.resident = true → g'.lastPage = c.g.lastPage ∧ g'.readySince = c.g.readySince) ∧
        (g'.resident = false → c.g.resident = true → g'.lastPage = [] ∧ s.clock < g'.readySince) ∧
        ((∃ x ∈ s.groups, x.1 ≠ c.key ∧ x.2.core = c.g.core ∧ x.2.wantsSlot = true) →
          (∀ p < 4, 24 ≤ s.residents (4 * c.g.core + p)) → g'.resident = false) ∧
        (c.g.resident = true → (∀ x ∈ s.groups, x.2.core = c.g.core → x.2.wantsSlot = false) → g'.resident = true)

/-- 15 R350, R354, 14 R325: BRA and BRX move the issuing fragment to the target, which lies in its overlay; a target outside is an
illegal-instruction trap, for BRA also under a clear guard. -/
def Sys2Proof.Claims.Branches : Prop :=
  ∀ (q : BitVec 2) (o : BitVec 22) (a : BitVec 5) (st : BitVec 3),
    Moves (.bra q o) (fun c => wordIn c o.toInt) (fun c => c.g) (fun c => wordAt c o.toInt) 0 ∧
    Moves (.brx a q st) (fun c => wordOfIn c a) (fun c => c.g) (fun c => wordOf c a) st.toNat ∧
    Traps (.bra q o) (fun c => ¬ wordIn c o.toInt) (fun _ => { kind := 0x01 }) ∧
    Traps (.brx a q st) (fun c => ¬ wordOfIn c a) (fun _ => { kind := 0x01 }) ∧
    (∀ s c, issuing s = some c → c.scoreboard (shapeOf c.g (.bra q o)) = true → c.q q.toNat = false → ¬ wordIn c o.toInt →
      exec (.bra q o) s = .next (groupStop s c.key c.slot c.f.pc { kind := 0x01 }))

/-- 15 R352, R353: BRP takes all lanes, none, or splits the fragment: a split record is pushed, the taken child keeps the live slot, and the
other takes the second live slot when it is free and is otherwise pushed. -/
def Sys2Proof.Claims.PredicateBranch : Prop :=
  ∀ (p : BitVec 3) (o : BitVec 11) (h : BitVec 10),
    let i := Instr.brp p o h
    let ok := fun c => wordIn c o.toInt ∧ wordIn c h.toInt
    let taken := fun (c : Ctx) => if p = 7 then c.f.mask else c.f.mask &&& c.p p.toNat
    Moves i (fun c => ok c ∧ taken c = c.f.mask) (fun c => c.g) (fun c => wordAt c o.toInt) 0 ∧
    Moves i (fun c => ok c ∧ taken c = 0 ∧ c.f.mask ≠ 0) (fun c => c.g) (fun c => c.f.pc.next) 0 ∧
    Traps i (fun c => ¬ wordIn c o.toInt ∨ ¬ wordIn c h.toInt) (fun _ => { kind := 0x01 }) ∧
    ∀ s c, Ready i s c → ok c → taken c ≠ 0 → taken c ≠ c.f.mask →
      ∃ t g', exec i s = .next t ∧ Only c s t g' ∧
        let split : Entry := { mask := c.f.mask, pc := wordAt c h.toInt, kind := 2, link := c.f.link, hinge := c.f.hinge }
        let child := fun m pc => ({ mask := m, pc := pc, kind := 1, link := BitVec.ofNat 7 c.g.sptr, hinge := wordAt c h.toInt } : Entry)
        let through := child (c.f.mask &&& ~~~taken c) c.f.pc.next
        g'.live c.slot = child (taken c) (wordAt c o.toInt) ∧ g'.dEntry c.g.sptr = split ∧
        (∀ n, n ≠ c.g.sptr → n ≠ c.g.sptr + 1 → g'.dEntry n = c.g.dEntry n) ∧
        (if (c.g.live (!c.slot)).kind = 1 then
           g'.live (!c.slot) = c.g.live (!c.slot) ∧ g'.dEntry (c.g.sptr + 1) = through ∧ g'.sptr = c.g.sptr + 2
         else g'.live (!c.slot) = through ∧ g'.dEntry (c.g.sptr + 1) = c.g.dEntry (c.g.sptr + 1) ∧ g'.sptr = c.g.sptr + 1) ∧
        g' = { c.g with
          live0 := g'.live0, live1 := g'.live1, dstack := g'.dstack, sptr := g'.sptr, readyAt := g'.readyAt
          lastSlot := g'.lastSlot, issues := g'.issues, hazards := g'.hazards, geoOp := g'.geoOp }

/-- 15 R355, R356, 16 R395, 04 R85: CALL, CALLX and GROW slide the window up and push a record, spilling the lines whose positions are
reused. -/
def Sys2Proof.Claims.CallsAndGrow : Prop :=
  ∀ (f : BitVec 3) (o : BitVec 21) (a : BitVec 5) (q : BitVec 2) (st : BitVec 3),
    SlidesUp (.call f o) f 0 (fun c => wordIn c o.toInt) (fun c => c.f.pc.next) (fun c => wordAt c o.toInt) 0 ∧
    SlidesUp (.callx a f q st) f 0 (fun c => wordOfIn c a) (fun c => c.f.pc.next) (fun c => wordOf c a) st.toNat ∧
    SlidesUp (.grow f) f 1 (fun _ => True) (fun _ => ⟨0, 0, false⟩) (fun c => c.f.pc.next) 0 ∧
    Spills (.call f o) f (fun c => wordIn c o.toInt) ∧ Spills (.callx a f q st) f (fun c => wordOfIn c a) ∧
    Spills (.grow f) f (fun _ => True)

/-- 18 R447, 04 R85: RET and SHRINK slide the window down over a record of their kind, filling lines that were spilled; RET returns to the
recorded address. The words filled are those of memory where no group access has touched the spill region. -/
def Sys2Proof.Claims.ReturnsAndShrink : Prop :=
  ∀ (q : BitVec 2) (st : BitVec 3),
    SlidesDown (.ret q st) 0 (fun c => wrecPc (wrec c.g (c.g.wdepth - 1))) st.toNat ∧
    SlidesDown (.shrink q st) 1 (fun c => c.f.pc.next) st.toNat

/-- 04 R85, 15 R355, R356, 16 R395, 17 R433, R435, 18 R447: a window instruction in a group of several fragments takes an illegal-convergence trap,
with no trap of a lower rank beside it; a push at WDEPTH 255, and a return with an empty window stack or over a record of another kind, take
an illegal-instruction trap. -/
def Sys2Proof.Claims.WindowTraps : Prop :=
  ∀ (f : BitVec 3) (o : BitVec 21) (q : BitVec 2) (st : BitVec 3) (a : BitVec 5) (w : BitVec 22),
    let beyond := fun (c : Ctx) => ∃ n, Loaded c (w.extractLsb' 14 8) n ∧ n ≤ (w.extractLsb' 0 14).toNat
    let split := fun (c : Ctx) => c.g.sptr ≠ 0 ∨ c.g.live1.kind = 1
    let other := fun (k : BitVec 2) (c : Ctx) => c.g.wdepth = 0 ∨ (wrec c.g (c.g.wdepth - 1)).extractLsb' 25 2 ≠ k
    Traps (.call f o) (fun c => wordIn c o.toInt ∧ c.g.wdepth < 255 ∧ split c) (fun _ => { kind := 0x03 }) ∧
    Traps (.callx a f q st) (fun c => wordOfIn c a ∧ c.g.wdepth < 255 ∧ split c) (fun _ => { kind := 0x03 }) ∧
    Traps (.ovcall q w) (fun c => c.g.wdepth < 255 ∧ split c ∧ ¬ beyond c) (fun _ => { kind := 0x03 }) ∧
    Traps (.ovret q st) (fun c => split c ∧ ¬ other 2 c) (fun _ => { kind := 0x03 }) ∧
    Traps (.grow f) (fun c => c.g.wdepth < 255 ∧ split c) (fun _ => { kind := 0x03 }) ∧
    Traps (.ret q st) (fun c => split c ∧ ¬ other 0 c) (fun _ => { kind := 0x03 }) ∧
    Traps (.shrink q st) (fun c => split c ∧ ¬ other 1 c) (fun _ => { kind := 0x03 }) ∧
    Traps (.call f o) (fun c => 255 ≤ c.g.wdepth) (fun _ => { kind := 0x01 }) ∧
    Traps (.callx a f q st) (fun c => 255 ≤ c.g.wdepth) (fun _ => { kind := 0x01 }) ∧
    Traps (.grow f) (fun c => 255 ≤ c.g.wdepth) (fun _ => { kind := 0x01 }) ∧
    Traps (.ovcall q w) (fun c => 255 ≤ c.g.wdepth) (fun _ => { kind := 0x01 }) ∧
    Traps (.callx a f q st) (fun c => ¬ wordOfIn c a) (fun _ => { kind := 0x01 }) ∧
    Traps (.ret q st) (other 0) (fun _ => { kind := 0x01 }) ∧
    Traps (.shrink q st) (other 1) (fun _ => { kind := 0x01 }) ∧
    Traps (.ovret q st) (other 2) (fun _ => { kind := 0x01 })

/-- 17 R432, R433, R435: OVCALL continues at a word of a loaded overlay and records its return; OVRET returns over such a record. An
overlay that no slot holds is an overlay-absent fault of either, whose INFO is the overlay; an OVCALL to a word outside its overlay is an
illegal-instruction trap; and while the slot loads, each waits. -/
def Obligations.OverlayTransfers : Prop :=
  ∀ (q : BitVec 2) (o : BitVec 22) (st : BitVec 3),
    let ov := o.extractLsb' 14 8
    let w := o.extractLsb' 0 14
    let whole := fun (c : Ctx) => c.g.sptr = 0 ∧ c.g.live1.kind ≠ 1
    let top := fun (c : Ctx) => wrec c.g (c.g.wdepth - 1)
    (∀ s c, Ready (.ovcall q o) s c → whole c → c.g.wdepth < 255 → (∃ n, Loaded c ov n ∧ w.toNat < n) →
      ∃ t g', exec (.ovcall q o) s = .next t ∧ Only c s t g' ∧
        Became c g' { c.g with wstack := g'.wstack, wdepth := c.g.wdepth + 1 } ⟨ov, w, false⟩ 0 ∧
        wrec g' c.g.wdepth = record c.f.pc.next 0 2 ∧ ∀ n, n ≠ c.g.wdepth → wrec g' n = wrec c.g n) ∧
    Moves (.ovret q st) (fun c => whole c ∧ c.g.wdepth ≠ 0 ∧ (top c).extractLsb' 25 2 = 2 ∧ ∃ n, Loaded c (wrecPc (top c)).ovl n)
      (fun c => { c.g with wdepth := c.g.wdepth - 1 }) (fun c => wrecPc (top c)) st.toNat ∧
    Traps (.ovcall q o) (fun c => whole c ∧ c.g.wdepth < 255 ∧ c.s.overlay c.g ov = none)
      (fun _ => { kind := 0x0D, info := ov.zeroExtend 64 }) ∧
    Traps (.ovret q st) (fun c => whole c ∧ c.g.wdepth ≠ 0 ∧ (top c).extractLsb' 25 2 = 2 ∧ c.s.overlay c.g (wrecPc (top c)).ovl = none)
      (fun c => { kind := 0x0D, info := (wrecPc (top c)).ovl.zeroExtend 64 }) ∧
    Traps (.ovcall q o) (fun c => ∃ n, Loaded c ov n ∧ n ≤ w.toNat) (fun _ => { kind := 0x01 }) ∧
    (∀ s c, Ready (.ovcall q o) s c → whole c → c.g.wdepth < 255 → Loads c ov → exec (.ovcall q o) s = .next c.withdrawn) ∧
    (∀ s c, Ready (.ovret q st) s c → whole c → c.g.wdepth ≠ 0 → (top c).extractLsb' 25 2 = 2 → Loads c (wrecPc (top c)).ovl →
      exec (.ovret q st) s = .next c.withdrawn)

/-- 15 R369: with no pending failure EXIT ends the issuing fragment: its lanes are no longer live and count as arrived in every open split;
with the last of them the group issues no more and gives up its slot. A pending failure stops the group instead. -/
def Obligations.ExitEndsFragment : Prop :=
  ∀ (q : BitVec 2) (st : BitVec 3) s c, Ready (.exit q st) s c →
    (c.g.fails = [] → ∃ t g', exec (.exit q st) s = .next t ∧ Only c s t g' ∧
      g'.live c.slot = {} ∧ g'.live (!c.slot) = c.g.live (!c.slot) ∧ g'.exited = c.g.exited ||| c.f.mask ∧ g'.readyAt = c.now + 1 + st.toNat ∧
      (∀ n, g'.dEntry n = if n < c.g.sptr ∧ (c.g.dEntry n).kind = 2 then
        { c.g.dEntry n with arrived := (c.g.dEntry n).arrived ||| ((c.g.dEntry n).mask &&& c.f.mask) } else c.g.dEntry n) ∧
      (g'.exited = BitVec.allOnes 32 → g'.ending = true ∧ g'.resident = false ∧ g'.exitPc = c.f.pc.off ++ c.f.pc.ovl) ∧
      (g'.exited ≠ BitVec.allOnes 32 → g'.ending = c.g.ending ∧ g'.resident = c.g.resident ∧ g'.exitPc = c.g.exitPc) ∧
      g' = { c.g with
        live0 := g'.live0, live1 := g'.live1, exited := g'.exited, dstack := g'.dstack, ending := g'.ending
        resident := g'.resident, lastPage := g'.lastPage, exitPc := g'.exitPc, readyAt := g'.readyAt, lastSlot := g'.lastSlot, issues := g'.issues
        hazards := g'.hazards, geoOp := g'.geoOp }) ∧
    ∀ cl f, c.g.firstFailure = some (cl, f) →
      exec (.exit q st) s = .next (groupStop (s.setGroup c.key { c.g with fails := Assoc.del cl.code c.g.fails }) c.key c.slot c.f.pc
        f.trap (some cl) f.more (some (f.pcword.zeroExtend 64)))

/-- 18 R463, 11 R258, R259: TRAP, with room in its block's ring and every earlier access made, writes the call record there, signals the
harts that serve the ring, and suspends the whole group with WAITKIND 7, no register changed. While the ring is full or disabled the
group gives up its slot and waits, and TRAP is issued again. -/
def Obligations.TrapCall : Prop :=
  ∀ (im : BitVec 11) (st : BitVec 3) s c,
    let b := 16 + c.g.core / 16
    Ready (.trap im st) s c → c.drained = true →
    (s.ringOpen b = true → (∀ i < 64, c.g.readsStill [(s.ring b).base + 64 * (s.ring b).tail + i] = false) → ∃ t g', ∃ bytes :
      List Byte, exec (.trap im st) s = .next t ∧ Assoc.find c.key t.groups = some g' ∧
      (∀ k, k ≠ c.key → Assoc.find k t.groups = Assoc.find k s.groups) ∧ t.out = s.out ++ [.signal b] ∧
      Became c g' { c.g with
        trapSeq := c.g.trapSeq + 1, wait := .trapCall (c.g.trapSeq + 1) st.toNat, waitkind := 7, waitSince := c.now } c.f.pc.next st.toNat ∧
      bytes.length = 64 ∧ (∀ j < 64, t.byte ((s.ring b).base + 64 * (s.ring b).tail + j) = bytes.getD j 0) ∧
      (∀ x, x < (s.ring b).base + 64 * (s.ring b).tail ∨ (s.ring b).base + 64 * (s.ring b).tail + 64 ≤ x → t.byte x = s.byte x) ∧
      bytes.take 14 = leBytes 2 c.g.job ++ leBytes 1 c.g.core ++ leBytes 1 c.g.frame ++ leBytes 4 c.g.launchid.toNat ++
        leBytes 4 (c.f.pc.off ++ c.f.pc.ovl).toNat ++ leBytes 2 im.toNat ∧
      bytes.getD 14 0 = c.g.groupix ∧ bytes.getD 15 0 = BitVec.ofNat 8 (b2n (Assoc.get true s.ringPhase b)) ∧
      (∀ n < 8, (bytes.drop (16 + 4 * n)).take 4 = leBytes 4 (c.k n).toNat) ∧
      (bytes.drop 48).take 2 = leBytes 2 (c.g.trapSeq + 1).toNat ∧ (bytes.drop 50) = List.replicate 14 0 ∧
      (t.ring b).tail = ((s.ring b).tail + 1) % (s.ring b).cap) ∧
    ((s.ring b).room = false → ∃ t g', exec (.trap im st) s = .next t ∧ Assoc.find c.key t.groups = some g' ∧
      (∀ k, k ≠ c.key → Assoc.find k t.groups = Assoc.find k s.groups) ∧ (∀ x, t.byte x = s.byte x) ∧ t.issue = none ∧
      g'.wait = .trapRoom ∧ g'.resident = false ∧ g'.live c.slot = c.f ∧ g'.live (!c.slot) = c.g.live (!c.slot) ∧
      g'.k = c.g.k ∧ g'.lines = c.g.lines ∧ g'.waitkind = c.g.waitkind ∧ g'.trapSeq = c.g.trapSeq)

/-- 15 R349, 10 R220, R221: BKPT stops the group exactly before itself: KIND 0x0E, LANES 0 and INFO 0; no register and no other group
changes. -/
def Sys2Proof.Claims.BreakpointTraps : Prop :=
  ∀ (im : BitVec 11) (st : BitVec 3), Traps (.bkpt im st) (fun _ => True) (fun _ => { kind := 0x0E }) ∧
    ∀ s c, Ready (.bkpt im st) s c → ∃ t g', exec (.bkpt im st) s = .next t ∧ Assoc.find c.key t.groups = some g' ∧
      (∀ k, k ≠ c.key → Assoc.find k t.groups = Assoc.find k s.groups) ∧ t.issue = none ∧ g'.stop = .faulted ∧
      g'.live c.slot = c.f ∧ g'.live (!c.slot) = c.g.live (!c.slot) ∧ g'.k = c.g.k ∧ g'.lines = c.g.lines ∧ g'.p = c.g.p ∧
      g'.frec.faultword = 0x0E ∧ g'.frec.pcword = (c.f.pc.off ++ c.f.pc.ovl).zeroExtend 32 ∧ g'.frec.lanes = 0 ∧ g'.frec.info = 0 ∧
      g'.frec.seq = c.g.frec.seq + 1 ∧ g'.waitkind = 0 ∧ g'.resident = false

namespace Sys2Proof.Claims

/-- The state with the translation of an object's address recorded, and another group's spill region that it lies in marked. -/
def recorded (c : Ctx) (va : Nat) (write : Bool) (pa : Nat) (f : Option Found) : State :=
  c.useMem write [{ lane := 0, va := va, place := .here pa f }]

/-- The object named by address `va` stands at flat address `pa` of this module: aligned, not poisoned in its sectors, for a write not
held by a shackle nor still to be read by the group's matrix instruction, and its first `held` bytes not held back by an earlier access of the
fragment. -/
structure ObjectAt (c : Ctx) (place : Place) (va align held sectors : Nat) (write : Bool) (pa : Nat) (f : Option Found) : Prop where
  aligned : va % align = 0
  here : place = .here pa f
  sound : ∀ i < sectors, c.s.poisoned (pa + 64 * i) = false
  free : write = true → c.s.shackled pa = false ∧ c.g.readsStill ((List.range align).map (fun i => pa + i)) = false
  past : c.objectHeld pa held = false

/-- The instruction completes from state `s1`: kd takes `x`, the group is otherwise `h` with its fragment at the next word (and what it
has seen of memory), only bytes from `lo` to below `hi` may differ, no other group changes, and nothing else does but the past of memory,
the messages that its releases leave, and the objects known to be in use. -/
structure Finishes (c : Ctx) (s1 t : State) (h : Group) (kd : Nat) (x : Word) (stall lo hi : Nat) : Prop where
  group : ∃ g', Assoc.find c.key t.groups = some g' ∧ g'.kreg kd = x ∧ (∀ n, n ≠ kd → g'.kreg n = h.kreg n) ∧
    g'.frec = { h.frec with ppoisk := g'.frec.ppoisk } ∧
    g'.live c.slot = { h.live c.slot with pc := c.f.pc.next } ∧ g'.live (!c.slot) = h.live (!c.slot) ∧ g'.readyAt = c.now + 1 + stall ∧
    g' = { h with
      k := g'.k, frec := g'.frec, live0 := g'.live0, live1 := g'.live1, readyAt := g'.readyAt, lastSlot := g'.lastSlot, issues := g'.issues
      hazards := g'.hazards, geoOp := g'.geoOp, order := g'.order, spillTouched := g'.spillTouched }
  others : ∀ k, k ≠ c.key → Assoc.find k t.groups = Assoc.find k s1.groups
  bytes : ∀ x, x < lo ∨ hi ≤ x → t.byte x = s1.byte x
  rest : t = { s1 with
    groups := t.groups, mem := t.mem, hist := t.hist, poison := t.poison, touched := t.touched, objs := t.objs, msgs := t.msgs
    waiters := t.waiters, nextId := t.nextId, issue := none, fresh := c.s.fresh + 1 }

/-- The group at issue parks on the object at `pa` with a WAITKIND; its registers are those of `h`, and its fragment stands at the next
word. The wait is untracked when the die's table is full (02 R49). -/
structure Parks (c : Ctx) (s1 t : State) (h : Group) (kd pa va st : Nat) (kind : BitVec 8) (what : Until) (lo hi : Nat) : Prop where
  group : ∃ g' u, Assoc.find c.key t.groups = some g' ∧ (u = true ↔ 4096 ≤ s1.recordedWaits (dieOf c.g.core)) ∧
    Became c g' { h with
      wait := .object kd pa st u what, waitkind := kind, waitaddr := BitVec.ofNat 64 va, waitSince := c.now
      waitStamp := s1.nextId, order := g'.order, spillTouched := g'.spillTouched } c.f.pc.next 0
  others : ∀ k, k ≠ c.key → Assoc.find k t.groups = Assoc.find k s1.groups
  bytes : ∀ x, x < lo ∨ hi ≤ x → t.byte x = s1.byte x
  rest : t = { s1 with
    groups := t.groups, mem := t.mem, hist := t.hist, poison := t.poison, touched := t.touched, waiters := t.waiters
    nextId := s1.nextId + 1, issue := none, fresh := c.s.fresh + 1 }

/-- The result word of BAR (08 R171): phase, DONE, MLOST, OVF, UNTRACKED, DLK, ERR. -/
def barWord (phase : Nat) (done mlost ovf err : Bool) : Word :=
  (0 : BitVec 18) ++ BitVec.ofBool err ++ (0 : BitVec 2) ++ BitVec.ofBool ovf ++ BitVec.ofBool mlost ++ BitVec.ofBool done ++ BitVec.ofNat 8 phase

/-- The local phase of a group for the object at `va`, and the group with it set (08 R166). -/
def localPhase (g : Group) (va : Nat) : Nat := (g.bphase.toNat / 2 ^ (2 * (va / 16 % 16))) % 4
def withPhase_ (g : Group) (va n : Nat) : Group :=
  { g with bphase := BitVec.ofNat 32 (g.bphase.toNat + 2 ^ (2 * (va / 16 % 16)) * (n % 4) - 2 ^ (2 * (va / 16 % 16)) * localPhase g va) }

/-- Phase `n` has completed (08 R168). -/
def completed (b : Barrier) (n : Nat) : Bool := decide (1 ≤ (b.pseq + 256 - n) % 256 ∧ (b.pseq + 256 - n) % 256 ≤ 128)

/-- A BAR instruction meets its object: `s1` is the state it acts on, with the translation recorded and a lost member noted in the object
(02 R46), and its release has been covered. -/
def MeetsBarrier (i : Instr) (a : BitVec 5) (scope : Option (BitVec 3)) (s : State) (c : Ctx) (pa : Nat) (s1 : State) : Prop :=
  Ready i s c ∧ (∃ f, ObjectAt c (c.objectPlace (c.kpair a) true) (c.kpair a) 16 16 1 true pa f ∧
    s1 = (recorded c (c.kpair a) true pa f).noteLost pa) ∧
  ∀ x, scope = some x → c.released x.toNat = true

/-- What one arrival of a group on a barrier does to the object: the phase it counts toward, and the object after the phases that its
counts complete. With a lost member the current phase completes at once (02 R46). -/
def arrivalPhase (g : Group) (va : Nat) (b : Barrier) : Nat :=
  if b.mlost = false ∧ (localPhase g va + 256 - b.pseq) % 4 = 1 then (b.pseq + 1) % 256 else b.pseq
def arrived (g : Group) (va : Nat) (b : Barrier) : Barrier :=
  (Barrier.complete 131072 (if b.mlost then
    { b with pseq := (b.pseq + 1) % 256, cnt0 := if b.pseq % 2 = 0 then 0 else b.cnt0, cnt1 := if b.pseq % 2 = 0 then b.cnt1 else 0 }
   else b.count (arrivalPhase g va b))).1

/-- A valid ring descriptor that the instruction meets in its unit's scratchpad, on which no group is parked and which no earlier access of the
group holds back. -/
structure MeetsRing (i : Instr) (a : BitVec 5) (s : State) (c : Ctx) (u : LUnit) (pa : Nat) (r : StageRing) : Prop where
  ready : Ready i s c
  unit : c.s.unitOf c.g = some u
  offset : (c.kf a).toNat % 32 = 0 ∧ (c.kf a).toNat < u.spadLen
  at_ : pa = paSpad u.core (u.spadBase + (c.kf a).toNat)
  ring : r = s.stageRing pa
  valid : 1 ≤ r.nslot ∧ r.nslot ≤ 64 ∧ r.slotsz ≠ 0 ∧ r.reserved = 0 ∧ r.base + 256 * r.slotsz * r.nslot ≤ u.spadLen
  past : c.objectHeld pa 32 = false
  unread : c.g.readsStill ((List.range 32).map (fun i => pa + i)) = false
  alone : s.parked pa = false

/-- The result word of a ring instruction that used slot `i` (08 R176): the slot's offset, its number and its phase. -/
def ringWord (r : StageRing) (i : Nat) : Word :=
  (0 : BitVec 4) ++ BitVec.ofNat 1 (r.phase / 2 ^ i) ++ BitVec.ofNat 6 i ++ BitVec.ofNat 21 (r.base + 256 * r.slotsz * i)

end Sys2Proof.Claims

/-- 10 R215, R217: recording a translation changes no byte but the entry of the walk that found it, no group but the mark on a spill
region, and nothing else but the translations held. -/
def Sys2Proof.Claims.RecordedTranslations : Prop :=
  ∀ (c : Ctx) va write pa f,
    let t := recorded c va write pa f
    t = { c.s with mem := t.mem, tlb := t.tlb, nodes := t.nodes, groups := t.groups } ∧
    (∀ k, ∃ b, Assoc.find k t.groups = (Assoc.find k c.s.groups).map (fun g => { g with spillTouched := b })) ∧
    ∀ x, (∀ e, f = some e → e.cached = true ∨ x < e.pte ∨ e.pte + 8 ≤ x) → t.byte x = c.s.byte x

/-- 08 R170: BAR.INIT writes EXPECT, clears the flags, the phase and both counts, keeps SIGNAL, and sets the group's slot to 0; an EXPECT
of 0 or a parked waiter refuses it with ERR, and then neither changes. -/
def Sys2Proof.Claims.BarrierInit : Prop :=
  ∀ (d a b : BitVec 5) (q : BitVec 2) (st : BitVec 3) s c pa s1,
    let i := Instr.barInit d a b q st
    let va := c.kpair a
    MeetsBarrier i a none s c pa s1 →
    ∃ t, exec i s = .next t ∧
      ((c.kf b).extractLsb' 0 16 ≠ 0 → s1.parked pa = false →
        t.barrier pa = { expect := ((c.kf b).extractLsb' 0 16).toNat, pseq := 0, ovf := false, mlost := false, cnt0 := 0, cnt1 := 0 } ∧
        t.signal pa = s1.signal pa ∧
        Finishes c s1 t (withPhase_ c.g va 0) d.toNat (barWord 0 false false false false) st.toNat pa (pa + 8)) ∧
      ((c.kf b).extractLsb' 0 16 = 0 ∨ s1.parked pa = true →
        Finishes c s1 t c.g d.toNat
          (barWord (s1.barrier pa).pseq false (s1.barrier pa).mlost (s1.barrier pa).ovf true) st.toNat 0 0)

/-- 08 R167, R168, R170, 02 R46: BAR.ARV and BAR.ARW arrive, where the arrival would not run two phases ahead: the object counts it and
completes its phases, the group's local phase moves on; ARV then reports whether its phase is complete, and ARW waits for it. An arrival two
phases ahead blocks and changes no count. With a lost member no arrival and no wait blocks. -/
def Sys2Proof.Claims.BarrierArrivals : Prop :=
  ∀ (d a : BitVec 5) (sc : BitVec 3) (q : BitVec 2) (st : BitVec 3) s c pa s1 (w : Bool),
    let i := if w then Instr.barArw d a sc q st else Instr.barArv d a sc q st
    let va := c.kpair a
    let b := s1.barrier pa
    let n := arrivalPhase c.g va b
    let r := arrived c.g va b
    let blocked := b.mlost = false ∧ (localPhase c.g va + 256 - b.pseq) % 4 = 2
    MeetsBarrier i a (some sc) s c pa s1 → s1.parked pa = false →
    ∃ t, exec i s = .next t ∧
      (¬ blocked →
        t.barrier pa = r ∧ t.signal pa = s1.signal pa ∧
        ((w = false ∨ completed r n ∨ b.mlost = true) →
          Finishes c s1 t (withPhase_ c.g va (n + 1)) d.toNat (barWord n (completed r n) b.mlost r.ovf false) st.toNat pa (pa + 16)) ∧
        (w = true → ¬ completed r n → b.mlost = false →
          ∃ s2, s2 = { s1 with
              mem := s2.mem, hist := s2.hist, poison := s2.poison, touched := s2.touched, objs := s2.objs, msgs := s2.msgs
              waiters := s2.waiters, nextId := s2.nextId } ∧
            Parks c s2 t (withPhase_ c.g va (n + 1)) d.toNat pa va st.toNat 2 (.phase n sc.toNat false) pa (pa + 16) ∧
            (∀ x, x < pa ∨ pa + 16 ≤ x → s2.byte x = s1.byte x) ∧ t.nat (pa + 12) 4 ≠ 0)) ∧
      (blocked →
        Parks c s1 t c.g d.toNat pa va st.toNat 2 (.arrival (va / 16 % 16) w sc.toNat) (pa + 12) (pa + 16) ∧ t.nat (pa + 12) 4 ≠ 0)

/-- 08 R168, R170: BAR.WAIT completes at once on a completed phase, or with a lost member, and waits otherwise; BAR.TEST reports without
waiting, and with JOIN sets the group's slot to the object's phase. -/
def Sys2Proof.Claims.BarrierWaits : Prop :=
  ∀ (d a : BitVec 5) (sc : BitVec 3) (q : BitVec 2) (st : BitVec 3) s c pa s1,
    let va := c.kpair a
    let b := s1.barrier pa
    let n := (c.kf d).toNat % 256
    (MeetsBarrier (.barWait d a sc q st) a none s c pa s1 →
      ∃ t, exec (.barWait d a sc q st) s = .next t ∧
        (completed b n ∨ b.mlost = true →
          Finishes c s1 t c.g d.toNat (barWord n (completed b n) b.mlost b.ovf false) st.toNat 0 0) ∧
        (¬ completed b n → b.mlost = false →
          Parks c s1 t c.g d.toNat pa va st.toNat 2 (.phase n sc.toNat false) (pa + 12) (pa + 16) ∧ t.nat (pa + 12) 4 ≠ 0)) ∧
    (MeetsBarrier (.barTest d a 0 sc q st) a none s c pa s1 →
      ∃ t, exec (.barTest d a 0 sc q st) s = .next t ∧
        Finishes c s1 t c.g d.toNat (barWord n (completed b n) b.mlost b.ovf false) st.toNat 0 0) ∧
    (MeetsBarrier (.barTest d a 1 sc q st) a none s c pa s1 →
      ∃ t, exec (.barTest d a 1 sc q st) s = .next t ∧
        Finishes c s1 t (withPhase_ c.g va b.pseq) d.toNat (barWord b.pseq false b.mlost b.ovf false) st.toNat 0 0)

/-- 08 R168: counting an arrival completes phases, round by round, until the current one lacks arrivals: EXPECT stays, each completed phase
takes EXPECT arrivals and moves PSEQ by one, none is lost short of 65,535, and a barrier with EXPECT 0 completes none. Every running group
that waits for a phase completed in one of the rounds becomes ready with DONE. -/
def Obligations.PhaseCompletion : Prop :=
  (∀ (b : Barrier) (n : Nat), b.cnt0 ≤ 65535 → b.cnt1 ≤ 65535 → b.pseq < 256 →
    let r := (Barrier.complete 131072 (b.count n)).1
    let k := (Barrier.complete 131072 (b.count n)).2
    r.expect = b.expect ∧ r.mlost = b.mlost ∧ (b.ovf = true → r.ovf = true) ∧ r.cnt0 ≤ 65535 ∧ r.cnt1 ≤ 65535 ∧ r.pseq < 256 ∧
    (b.expect = 0 ∨ (if r.pseq % 2 = 0 then r.cnt0 else r.cnt1) < b.expect) ∧ (b.expect = 0 → r.pseq = b.pseq) ∧
    r.pseq = (b.pseq + k) % 256 ∧
    (b.cnt0 + b.cnt1 < 65535 → r.ovf = b.ovf ∧ r.cnt0 + r.cnt1 + k * b.expect = b.cnt0 + b.cnt1 + 1)) ∧
  ∀ (s : State) pa b key g kd st u n sc w, Assoc.find key s.groups = some g → g.stop = .running →
    g.wait = .object kd pa st u (.phase n sc w) → (n + 256 - b.pseq) % 256 < (Barrier.complete 131072 b).2 →
    ∃ g', Assoc.find key (s.completeBarrier pa b).groups = some g' ∧ g'.wait = .none ∧ g'.waitkind = 0 ∧
      (kd < 32 → (g'.kreg kd).getLsbD 8 = true)

/-- 08 R171, 02 R43: after a barrier has changed and its waiters have been woken, no running group is still parked on a phase that has
completed. -/
def Obligations.NoSatisfiedWaiter : Prop :=
  ∀ (s : State) pa, Assoc.sorted s.groups = true →
    let t := s.wakeBarrier pa
    ∀ k g kd st u n sc w, Assoc.find k t.groups = some g → g.stop = .running → g.wait = .object kd pa st u (.phase n sc w) →
      ¬ completed (t.barrier pa) n

/-- 08 R174 to R176: the four ring instructions on a valid descriptor: RACQ takes the slot at PHEAD while one is free, RPUB publishes an acquired
slot, RTAKE takes the published slot at CHEAD, RREL frees the oldest slot once taken; otherwise RACQ and RTAKE wait, and RPUB and RREL
report ERR and change nothing. RACQ also waits behind a stalled COPYR that reached the ring first. Where RACQ or RTAKE would wait and a group
of the unit has been lost, it completes with MLOST. -/
def Obligations.StageRings : Prop :=
  ∀ (d a b : BitVec 5) (q : BitVec 2) (st : BitVec 3) s c u pa (r : StageRing),
    let off := (c.kf a).toNat
    let does := fun i slot (n : StageRing) => ∃ t, exec i s = .next t ∧ t.stageRing pa = n ∧
      Finishes c s t c.g d.toNat (ringWord n slot) st.toNat (pa + 8) (pa + 32)
    let waits := fun i kind what => ∃ t, exec i s = .next t ∧ Parks c s t c.g d.toNat pa (0xFF000100000000 + off) st.toNat kind what 0 0
    let refused := fun i => ∃ t, exec i s = .next t ∧ Finishes c s t c.g d.toNat 0x40000000 st.toNat 0 0
    let full := fun i => r.full / 2 ^ i % 2 = 1
    let oldest := (r.phead + r.free) % r.nslot
    let acquired := fun i => i < r.nslot ∧ (i + r.nslot - oldest) % r.nslot < r.nslot - r.free ∧ ¬ full i
    let lost := fun i => ∃ t, exec i s = .next t ∧ Finishes c s t c.g d.toNat 0x10000000 st.toNat 0 0
    let ahead := s.copyrAhead pa s.nextId
    (MeetsRing (.racq d a q st) a s c u pa r →
      (0 < r.free ∧ ahead = false → does (.racq d a q st) r.phead { r with phead := (r.phead + 1) % r.nslot, free := r.free - 1 }) ∧
      (r.free = 0 ∨ ahead = true → u.groupLost = false → waits (.racq d a q st) 4 .acquire) ∧
      (r.free = 0 ∨ ahead = true → u.groupLost = true → lost (.racq d a q st))) ∧
    (MeetsRing (.rtake d a q st) a s c u pa r →
      (full r.chead ∧ 0 < r.filled →
        does (.rtake d a q st) r.chead { r with chead := (r.chead + 1) % r.nslot, filled := r.filled - 1 }) ∧
      (¬ (full r.chead ∧ 0 < r.filled) → u.groupLost = false → waits (.rtake d a q st) 3 .take) ∧
      (¬ (full r.chead ∧ 0 < r.filled) → u.groupLost = true → lost (.rtake d a q st))) ∧
    (MeetsRing (.rpub d a b q st) a s c u pa r →
      let i := (c.kf b).toNat % 64
      (acquired i → does (.rpub d a b q st) i { r with
        full := r.full ||| 2 ^ i, phase := r.phase ^^^ 2 ^ i, filled := (r.filled + 1) % 256 }) ∧
      (¬ acquired i → refused (.rpub d a b q st))) ∧
    (MeetsRing (.rrel d a q st) a s c u pa r →
      (full oldest ∧ popcount64 r.full ≠ r.filled →
        does (.rrel d a q st) oldest { r with full := r.full ^^^ 2 ^ oldest, free := (r.free + 1) % 256 }) ∧
      (¬ full oldest ∨ popcount64 r.full = r.filled → refused (.rrel d a q st)))

/-- 08 R180, R181, 16 R382, R384, 12 R275, R277, R288, 15 R360: WAITC completes while its counter is at most N and no failure of its class is
pending, which stops the group instead (that ordered flags not yet sent count for the remote class is the model's reading: log 78); FENCE once
the earlier accesses it covers have been performed and, at a scope wider than grp, every earlier load has; FENCER,
once the group's stores to other chips have been sent, sends a marker set to each of those chips and waits for their reports, a
packet to a chip that has packets in a plane's escape channel following them; CCTL changes nothing. -/
def Sys2Proof.Claims.CountersAndFences : Prop :=
  ∀ (cl : BitVec 2) (n : BitVec 9) (sc : BitVec 3) (q : BitVec 2) (st : BitVec 3) (a b : BitVec 5) (m : BitVec 4),
    let counter := fun (c : Ctx) => match cl.toNat with
      | 0 => c.g.ctrCopy.toNat | 1 => c.g.ctrMatrix.toNat | 2 => c.g.ctrRemote.toNat + c.s.unsentFlags c.key | _ => c.g.ctrIo.toNat
    Moves (.waitc cl n st) (fun c => counter c ≤ n.toNat ∧ Assoc.find cl.toNat c.g.fails = none)
      (fun c => { c.g with order := c.g.order.observe c.f.mask cl.toNat }) (fun c => c.f.pc.next) st.toNat ∧
    (∀ s c, Ready (.waitc cl n st) s c → n.toNat < counter c → exec (.waitc cl n st) s = .next c.withdrawn) ∧
    (∀ s c f, Ready (.waitc cl n st) s c → counter c ≤ n.toNat → Assoc.find cl.toNat c.g.fails = some f →
      ∃ e : EngineClass, e.code = cl.toNat ∧
        exec (.waitc cl n st) s = .next (groupStop (s.setGroup c.key { c.g with fails := Assoc.del cl.toNat c.g.fails }) c.key c.slot
          c.f.pc f.trap (some e) f.more (some (f.pcword.zeroExtend 64)))) ∧
    (∀ s c, Ready (.fence sc q st) s c → c.released sc.toNat = true → sc = 0 ∨ c.loadsOpen = false →
      ∃ t g', exec (.fence sc q st) s = .next t ∧ Only c { s with ops := t.ops } t g' ∧
        Became c g' { c.g with order := (c.fenced sc.toNat (c.s.viewOf c.key c.g c.f.mask c.g.po)).order } c.f.pc.next st.toNat ∧
        ∀ k, Assoc.find k t.ops = (Assoc.find k s.ops).map (fun o =>
          if o.group = c.key ∧ o.owner &&& c.f.mask ≠ 0 ∧ o.dest ≠ .none then { o with fence := some sc } else o)) ∧
    (∀ s c, Ready (.fence sc q st) s c → c.released sc.toNat = false ∨ sc ≠ 0 ∧ c.loadsOpen = true → exec (.fence sc q st) s = .next c.withdrawn) ∧
    Moves (.cctl a b m q st) (fun _ => True) (fun c => c.g) (fun c => c.f.pc.next) st.toNat ∧
    ∀ s c, Ready (.fencer q st) s c → c.storesUnsent = false →
      let chips := c.g.targets.map (fun x => x.1)
      chips.Nodup →
      let num := fun ch => (Assoc.get 0 s.mseq ch + 1) % 2 ^ 16
      let packet := fun ch k => if Assoc.get 0 s.escape (256 * k + ch) = 0 then Output.marker ch k (num ch) true
        else .escaped (.marker ch k (num ch) true)
      ∃ t g', exec (.fencer q st) s = .next t ∧
        Assoc.find c.key t.groups = some g' ∧ t = { s with
          groups := t.groups, issue := none, fresh := s.fresh + 1, mseq := t.mseq, escape := t.escape
          out := s.out ++ chips.flatMap (fun ch => (List.range 8).map (packet ch)) } ∧
        (∀ k, k ≠ c.key → Assoc.find k t.groups = Assoc.find k s.groups) ∧
        (∀ ch, Assoc.get 0 t.mseq ch = if ch ∈ chips then num ch else Assoc.get 0 s.mseq ch) ∧
        (chips = [] ∧ c.g.ctrRemote = 0 ∧ c.g.tickets = 0 → g'.wait = .none ∧ g'.targets = []) ∧
        (¬ (chips = [] ∧ c.g.ctrRemote = 0 ∧ c.g.tickets = 0) →
          g'.wait = .fencer (chips.map (fun ch => (ch, num ch))) st.toNat ∧ g'.targets = c.g.targets) ∧
        g'.live c.slot = { c.f with pc := c.f.pc.next } ∧ g'.live (!c.slot) = c.g.live (!c.slot) ∧
        g' = { c.g with
          wait := g'.wait, waitSince := g'.waitSince, targets := g'.targets, live0 := g'.live0, live1 := g'.live1, readyAt := g'.readyAt
          readySince := g'.readySince, lastSlot := g'.lastSlot, issues := g'.issues, hazards := g'.hazards, geoOp := g'.geoOp, order := g'.order }

/-- 15 R361, R362, 02 R30: CCWAIT reports at once on a counter whose REMAIN is 0, and in its polling form on any; otherwise it parks its
group on the counter. -/
def Sys2Proof.Claims.CounterWait : Prop :=
  ∀ (d a : BitVec 5) (m : BitVec 4) (q : BitVec 2) (st : BitVec 3) s c pa f,
    let i := Instr.ccwait d a m q st
    let va := c.kpair a
    let s1 := recorded c va false pa f
    let word := fun (done : Bool) => (BitVec.ofNat 16 (s1.nat (pa + 6) 2) ++ (0 : BitVec 7) ++ BitVec.ofBool done ++ (0 : BitVec 5) ++
      BitVec.ofNat 3 (s1.nat (pa + 4) 2) : Word)
    Ready i s c → ObjectAt c (c.globalPlace va false) va 16 16 1 false pa f →
    ∃ t, exec i s = .next t ∧
      (s1.nat pa 4 = 0 → Finishes c s1 t c.g d.toNat (word true) st.toNat 0 0) ∧
      (s1.nat pa 4 ≠ 0 → m = 1 → Finishes c s1 t c.g d.toNat (word false) st.toNat 0 0) ∧
      (s1.nat pa 4 ≠ 0 → m ≠ 1 → Parks c s1 t c.g d.toNat pa va st.toNat 1 (.counter (s1.nat (pa + 6) 2)) (pa + 8) (pa + 16) ∧
        (s.shackled pa = false → t.nat (pa + 8) 8 ≠ 0))

/-- 11 R242, R243: DBELL reports what hinders it: a number out of range, a queue that is disabled or another job's, an index beyond it, an entry
still marked; a refusal by the queue is counted. Otherwise the mark is in flight and CTRIO has risen. -/
def Sys2Proof.Claims.Doorbell : Prop :=
  ∀ (d a b : BitVec 5) (q : BitVec 2) (st : BitVec 3) s c,
    let qn := (c.kf a).toNat
    let ix := (c.kf b).toNat
    let rec_ := 0x10000 + 0x40 * qn
    let reg := fun o n => s.ctlNat .io (rec_ + o) n
    let marked := (s.byte (reg 0x08 8 + ix / 8)).getLsbD (ix % 8) = true ∨ ∃ x ∈ s.bells, x.2.queue = qn ∧ x.2.index = ix
    let refused := fun t (n : Nat) => ∃ s1, s1 = { s with ctl := s1.ctl } ∧ Finishes c s1 t c.g d.toNat (BitVec.ofNat 32 n) st.toNat 0 0 ∧
      (n ≠ 4 → s1.ctlNat .io (rec_ + 0x2C) 4 = min (2 ^ 32 - 1) (reg 0x2C 4 + 1)) ∧ (n = 4 → s1.ctl = s.ctl)
    Ready (.dbell d a b q st) s c → c.g.ctrIo ≠ 0xFFFF →
    ∃ t, exec (.dbell d a b q st) s = .next t ∧
      (2 ^ 12 ≤ qn ∨ 2 ^ 16 ≤ ix → refused t 4) ∧
      (qn < 2 ^ 12 → ix < 2 ^ 16 →
        (reg 0x28 4 % 2 = 0 ∨ reg 0x1E 2 ≠ c.g.job → refused t 1) ∧
        (reg 0x28 4 % 2 = 1 → reg 0x1E 2 = c.g.job →
          (reg 0x18 4 ≤ ix → refused t 2) ∧
          (ix < reg 0x18 4 → marked → refused t 3) ∧
          (ix < reg 0x18 4 → ¬ marked →
            ∃ s1, s1 = { s with
                bells := Assoc.put s.nextId { group := c.key, po := c.g.po, owner := c.f.mask, queue := qn, index := ix } s.bells
                nextId := s.nextId + 1 } ∧
              Finishes c s1 t { c.g with ctrIo := c.g.ctrIo + 1, po := c.g.po + 1 } d.toNat 0 st.toNat 0 0)))

/-- 11 R243, R244, 08 R179: a DBELL's mark, once every earlier access of its group has taken effect and the bitmap's lines do not wait: the
entry's bit is set and CTRIO falls by 1; then
the run of marked entries from TAIL is cleared, TAIL moves past it, and, if that moved it, the new TAIL is written to the endpoint. -/
def Sys2Proof.Claims.DoorbellMarks : Prop :=
  ∀ s id b g, s.input = .one id → Assoc.find id s.bells = some b → s.engineReady b.group b.po b.owner = true →
    Assoc.find b.group s.groups = some g →
    let rec_ := 0x10000 + 0x40 * b.queue
    let reg := fun (u : State) o n => u.ctlNat .io (rec_ + o) n
    let depth := reg s 0x18 4
    let tail := reg s 0x24 4
    let bit := fun (u : State) i => (u.byte (reg s 0x08 8 + i / 8)).getLsbD (i % 8)
    b.queue < 2 ^ 12 → tail < depth → b.index < depth → s.bmapServed b.queue = true →
    ∃ t n, exec .doorbellMark s = .next t ∧ n ≤ depth ∧
      (∀ i < n, (tail + i) % depth = b.index ∨ bit s ((tail + i) % depth) = true) ∧
      (n < depth → (tail + n) % depth ≠ b.index ∧ bit s ((tail + n) % depth) = false) ∧
      reg t 0x24 4 = (tail + n) % depth ∧
      t.out = s.out ++ (if (tail + n) % depth = tail then [] else [.tailWrite (reg s 0x08 8) ((tail + n) % depth)]) ∧
      (∀ i < depth, bit t i = true ↔ (bit s i = true ∨ i = b.index) ∧ ∀ k < n, i ≠ (tail + k) % depth) ∧
      (∀ a, (∀ i < depth, a ≠ reg s 0x08 8 + i / 8) → t.byte a = s.byte a) ∧
      t.bells = Assoc.del id s.bells ∧ t.groups = Assoc.put b.group { g with ctrIo := g.ctrIo - 1 } s.groups ∧
      t = { s with
        input := .none, bells := t.bells, groups := t.groups, mem := t.mem, hist := t.hist, poison := t.poison, ctl := t.ctl, out := t.out }

namespace Sys2Proof.Claims

/-- The group at issue has handed `op` to the tumblers from state `s1`: it waits, its fragment still at the instruction, and no byte and
nothing else changes. -/
structure Hands (c : Ctx) (s1 t : State) (op : LockOp) (vas : List Nat) (st : Nat) : Prop where
  locks : t.locks = Assoc.put s1.nextId { group := c.key, slot := c.slot, pc := c.f.pc, op := op, vas := vas } s1.locks
  group : ∃ g', Assoc.find c.key t.groups = some g' ∧ g'.wait = .locks s1.nextId st ∧ g' = { c.g with
    wait := g'.wait, waitSince := g'.waitSince, readyAt := g'.readyAt, lastSlot := g'.lastSlot, issues := g'.issues, hazards := g'.hazards
    geoOp := g'.geoOp, spillTouched := g'.spillTouched, order := g'.order }
  rest : t = { s1 with locks := t.locks, groups := Assoc.put c.key ((Assoc.find c.key t.groups).getD c.g) s1.groups
                       nextId := s1.nextId + 1, issue := none, fresh := s1.fresh + 1 }

/-- Operation `id` is under its locks: the step's input names it, and its group waits for it. -/
structure Locked (s : State) (id : Nat) (l : Lock) (g : Group) : Prop where
  input : s.input = .one id
  lock : Assoc.find id s.locks = some l
  group : Assoc.find l.group s.groups = some g
  waits : ∃ st, g.wait = .locks id st

/-- An operation under locks has completed from state `s1`: the locks are released, the group moves past the instruction with `results`
in its uniform registers, and no other group changes. -/
structure Unlocks (s1 t : State) (id : Nat) (l : Lock) (g : Group) (results : List (Nat × Word)) : Prop where
  locks : t.locks = Assoc.del id s1.locks
  group : ∃ g', Assoc.find l.group t.groups = some g' ∧ g'.wait = .none ∧ (∀ r ∈ results, g'.kreg r.1 = r.2) ∧
    (∀ n, (∀ r ∈ results, n ≠ r.1) → g'.kreg n = g.kreg n) ∧
    g'.live l.slot = { g.live l.slot with pc := (g.live l.slot).pc.next } ∧ g'.live (!l.slot) = g.live (!l.slot) ∧
    g' = { g with
      wait := g'.wait, k := g'.k, frec := g'.frec, live0 := g'.live0, live1 := g'.live1, readyAt := g'.readyAt, hazards := g'.hazards
      readySince := g'.readySince, order := g'.order }
  others : ∀ k, k ≠ l.group → Assoc.find k t.groups = Assoc.find k s1.groups
  rest : t = { s1 with locks := t.locks, groups := t.groups, input := .none }

/-- The 64-bit result of ALLOC: address, class, status. -/
def allocWords (kd addr cls status : Nat) : List (Nat × Word) :=
  [(kd, BitVec.ofNat 32 addr), (kd + 1, (BitVec.ofNat 4 status ++ BitVec.ofNat 4 cls ++ BitVec.ofNat 24 (addr / 2 ^ 32) : Word))]

/-- The class of a size: the smallest whose blocks hold it. -/
def classFor (size c : Nat) : Prop := size ≤ 256 * 2 ^ c ∧ ∀ e < c, 256 * 2 ^ e < size

end Sys2Proof.Claims

/-- 08 R184 to R187, 17 R417, 11 R263, 15 R338, 16 R389: MCAS, ALLOC and FREE, whose checks pass, hand their operation to the tumblers and
wait, with nothing written. MCAS takes its entries' places, expected and new values from its block, each sector of it as it stood after one moment
that is no earlier than what binds the group: so, where nothing has been stored to it since, as it stands now. (Which of several such moments is a
free choice: the model's, log 10.) -/
def Obligations.LockedOperationsIssue : Prop :=
  ∀ (d a b : BitVec 5) (q : BitVec 2) (st : BitVec 3) s c pa f,
    let va := c.kpair a
    (Ready (.mcas d a q st) s c →
      let n := c.mcasCount pa
      let addr := c.mcasAddr pa
      let off := fun x (g : Option Found) => ∀ e, g = some e → e.cached = true ∨ x < e.pte ∨ e.pte + 8 ≤ x
      ObjectAt c (c.globalPlace va false) va 256 208 ((16 + 24 * n + 63) / 64) false pa f → c.mcasBad pa = false →
      ∀ (flat : Nat → Nat) (found : Nat → Option Found), (∀ e < n, addr e % 8 = 0 ∧
        (∀ e' < e, addr e' ≠ addr e ∧ flat e' / 8 ≠ flat e / 8) ∧
        s.entryPlace c.g (addr e) e = .here (flat e) (found e) ∧ s.poisoned (flat e) = false ∧ c.objectHeld (flat e) 8 = false) →
      c.ticketsOpen = false → s.locksOn (dieOf c.g.core) true < 256 → c.released (c.mcasScope pa) = true →
      ∃ t s1, exec (.mcas d a q st) s = .next t ∧
        s1 = { s with mem := s1.mem, hist := s1.hist, tlb := s1.tlb, nodes := s1.nodes, groups := s1.groups } ∧
        s1.hist.map (fun m => { m with outside := false }) = s.hist.map (fun m => { m with outside := false }) ∧
        (∀ k, ∃ z, Assoc.find k s1.groups = (Assoc.find k s.groups).map (fun g => { g with spillTouched := z })) ∧
        (∀ x, off x f → (∀ e < n, off x (found e)) → s1.byte x = s.byte x) ∧
        Hands c s1 t (.mcas d.toNat (c.mcasScope pa) ((List.range n).map (fun e =>
          (flat e, c.blockNat pa (0x18 + 24 * e) 8, c.blockNat pa (0x20 + 24 * e) 8)))) ((List.range n).map addr) st.toNat) ∧
    (∀ k, let sector := (List.range 64).map (fun i => pa + 64 * k + i)
      let floor := max (s.floorOf c.g.order c.f.mask sector) s.base
      c.s = s → ∃ r, floor ≤ r ∧ ∀ o w, o / 64 = k → (o + w - 1) / 64 = k →
        c.blockNat pa o w = leNat ((List.range w).map (fun i => s.pastByte (pa + o + i) r)) ∧
        ((∀ m ∈ s.hist, floor < m.time → ∀ a ∈ sector, m.wrote a = false) → c.blockNat pa o w = s.nat (pa + o) w)) ∧
    (c.released 3 = true → s.locksOn (dieOf c.g.core) false < 64 → ObjectAt c (c.globalPlace va true) va 128 128 2 true pa f →
      (Ready (.alloc d a b q st) s c → ∃ t, exec (.alloc d a b q st) s = .next t ∧
        Hands c (recorded c va true pa f) t (.alloc d.toNat pa (c.kf b).toNat) [va] st.toNat) ∧
      (Ready (.free d a b q st) s c → ∃ t, exec (.free d a b q st) s = .next t ∧
        Hands c (recorded c va true pa f) t (.free d.toNat pa (c.kpair b)) [va] st.toNat))

/-- 08 R186: an MCAS under its locks compares every entry and then stores every new value, or none; kD receives 1, or a bit 8 + e for each
entry e that differs. A word that software may not store to (02 R34) is apart, and so is a poisoned one. -/
def Sys2Proof.Claims.McasComparesAndSwaps : Prop :=
  ∀ s id l g kd sc entries, Locked s id l g → l.restart = false → l.op = .mcas kd sc entries → kd < 32 → entries.length ≤ 8 →
    (∀ e ∈ entries, s.homeWaits e.1 = false ∧ s.shackled e.1 = false ∧ s.poisoned e.1 = false ∧ e.2.2 < 2 ^ 64) →
    g.readsStill (entries.flatMap (fun e => (List.range 8).map (fun i => e.1 + i))) = false →
    (entries.map (fun e => e.1 / 8)).Nodup → (∀ e ∈ entries, e.1 % 8 = 0 ∧ e.1 < 2 ^ 52) →
    (∀ m, (∀ x, (∀ e ∈ entries, x < e.1 ∨ e.1 + 8 ≤ x) → memByte m x = s.byte x) →
      ∀ e ∈ entries, { s with mem := m }.spoiled (cellsOf e.1 8 e.2.2) = []) →
    ∃ t s1, exec .mcasLocksComplete s = .next t ∧
      s1 = { s with mem := s1.mem, hist := s1.hist, poison := s1.poison, msgs := s1.msgs, nextId := s1.nextId, touched := s1.touched } ∧
      ((∀ e ∈ entries, s.nat e.1 8 = e.2.1) →
        Unlocks s1 t id l g [(kd, 1)] ∧ (∀ e ∈ entries, t.nat e.1 8 = e.2.2) ∧
        ∀ x, (∀ e ∈ entries, x < e.1 ∨ e.1 + 8 ≤ x) → t.byte x = s.byte x) ∧
      ((∃ e ∈ entries, s.nat e.1 8 ≠ e.2.1) →
        Unlocks s t id l g [(kd, maskOf (fun j => decide (8 ≤ j) && match entries[j - 8]? with
          | some e => decide (s.nat e.1 8 ≠ e.2.1) | none => false))])

/-- 11 R262, R263: ALLOC under its descriptor's lock reports an invalid descriptor or size, takes the head of its class's free list, or else the
next bytes of the heap, or reports exhaustion; it changes only the descriptor's field that it takes from. -/
def Sys2Proof.Claims.AllocTakesBlock : Prop :=
  ∀ s id l g kd pa size c, Locked s id l g → l.op = .alloc kd pa size → kd + 1 < 32 → s.shackled pa = false → s.homeWaits pa = false →
    g.readsStill ((List.range 128).map (fun i => pa + i)) = false →
    let base := s.nat pa 8
    let limit := s.nat (pa + 8) 8
    let bump := s.nat (pa + 0x10) 8
    let head := s.nat (pa + 0x18 + 8 * c) 8
    let bad := base % 256 ≠ 0 ∨ limit % 256 ≠ 0 ∨ bump % 256 ≠ 0 ∨ limit ≤ base ∨ bump < base ∨ limit < bump
    let only := fun (t : State) at_ v s1 => (∀ x, x < at_ ∨ at_ + 8 ≤ x → t.byte x = s1.byte x) ∧ t.nat at_ 8 = v
    (bad → ∃ t, exec .heapDescriptorLocked s = .next t ∧ Unlocks s t id l g (allocWords kd 0 0 3)) ∧
    (¬ bad → (size = 0 ∨ 65536 < size) → ∃ t, exec .heapDescriptorLocked s = .next t ∧ Unlocks s t id l g (allocWords kd 0 0 2)) ∧
    (¬ bad → size ≠ 0 → size ≤ 65536 → classFor size c →
      (head = 0 → limit < bump + 256 * 2 ^ c → ∃ t, exec .heapDescriptorLocked s = .next t ∧ Unlocks s t id l g (allocWords kd 0 c 1)) ∧
      (head = 0 → bump + 256 * 2 ^ c ≤ limit →
        ∃ t, exec .heapDescriptorLocked s = .next t ∧ only t (pa + 0x10) (bump + 256 * 2 ^ c) s ∧
          Unlocks { s with mem := t.mem, hist := t.hist, poison := t.poison, msgs := t.msgs, nextId := t.nextId } t id l g
            (allocWords kd bump c 0)) ∧
      (∀ flat f, head ≠ 0 → s.linkPlace g head false = .here flat (some f) → s.poisoned flat = false →
        let s1 := (s.useTranslation g.core g.job (transVa head) false f).noteSpill g.job (transVa head)
        ∃ t b, exec .heapDescriptorLocked s = .next t ∧ only t (pa + 0x18 + 8 * c) (s.nat flat 8) s1 ∧
          Unlocks { s1 with mem := t.mem, hist := t.hist, poison := t.poison, msgs := t.msgs, nextId := t.nextId } t id l
            { g with spillTouched := b } (allocWords kd head c 0)))

/-- 11 R263: FREE under its descriptor's lock reports an invalid descriptor or value, and otherwise links the block in front of its class's
free list. -/
def Sys2Proof.Claims.FreeReturnsBlock : Prop :=
  ∀ s id l g kd pa v, Locked s id l g → l.op = .free kd pa v → kd < 32 → s.shackled pa = false → s.homeWaits pa = false →
    g.readsStill ((List.range 128).map (fun i => pa + i)) = false →
    let base := s.nat pa 8
    let limit := s.nat (pa + 8) 8
    let bump := s.nat (pa + 0x10) 8
    let addr := v % 2 ^ 56
    let cls := v / 2 ^ 56 % 16
    let status := v / 2 ^ 60 % 16
    let bad := base % 256 ≠ 0 ∨ limit % 256 ≠ 0 ∨ bump % 256 ≠ 0 ∨ limit ≤ base ∨ bump < base ∨ limit < bump
    let wrong := status ≠ 0 ∨ 8 < cls ∨ addr < base ∨ limit ≤ addr ∨ addr % 256 ≠ 0
    let busy := ∃ flat f, s.linkPlace g addr true = .here flat f ∧
      (s.shackled flat = true ∨ g.readsStill ((List.range 8).map (fun i => flat + i)) = true)
    ¬ busy →
    (bad → ∃ t, exec .heapDescriptorLocked s = .next t ∧ Unlocks s t id l g [(kd, 3)]) ∧
    (¬ bad → wrong → ∃ t, exec .heapDescriptorLocked s = .next t ∧ Unlocks s t id l g [(kd, 4)]) ∧
    (∀ flat f, ¬ bad → ¬ wrong → s.linkPlace g addr true = .here flat (some f) → s.poisoned flat = false → (flat + 8 ≤ pa ∨ pa + 96 ≤ flat) →
      let s1 := (s.useTranslation g.core g.job (transVa addr) true f).noteSpill g.job (transVa addr)
      ∃ t b, exec .heapDescriptorLocked s = .next t ∧ t.nat flat 8 = s.nat (pa + 0x18 + 8 * cls) 8 ∧ t.nat (pa + 0x18 + 8 * cls) 8 = addr ∧
        (∀ x, (x < flat ∨ flat + 8 ≤ x) → (x < pa + 0x18 + 8 * cls ∨ pa + 0x20 + 8 * cls ≤ x) → t.byte x = s1.byte x) ∧
        Unlocks { s1 with mem := t.mem, hist := t.hist, poison := t.poison, msgs := t.msgs, nextId := t.nextId } t id l
          { g with spillTouched := b } [(kd, 0)])

/-- 10 R231, 07 R157, R158: what the device must write at an address for a launch of group `g`'s is not in a page held for migration, in a
shackled line, still to be read by the group's matrix instruction, or behind an earlier access of the device to the same counter that waits. -/
def Sys2Proof.Claims.clear (s : State) (g : Group) (l : Launch) (mask : BitVec 16) (va : Nat) : Prop :=
  (∀ p, s.reach l.job mask va true ≠ .held p) ∧
  (∀ x f, s.reach l.job mask va true = .at x f → s.shackled x = false ∧ g.readsStill ((List.range 16).map (fun i => x + i)) = false) ∧
  s.deviceOpen l.job va = false

/-- 02 R38 to R40, 17 R409, R410: LAUNCH copies its record into its unit's queue while that has room and the launch's ring holds none of the
unit's records, and the graph counter, reached with the child's own key mask, rises by 1; with neither room there nor in the overflow ring it
answers 2 and changes nothing. -/
def Sys2Proof.Claims.LaunchQueuesRecord : Prop :=
  ∀ (d a : BitVec 5) (q : BitVec 2) (st : BitVec 3) s c pa f l u,
    let va := c.kpair a
    let s1 := recorded c va false pa f
    let uk := 65536 * c.g.launchid.toNat + u.ix
    let mask := BitVec.ofNat 16 (s.nat (pa + 0x24) 4) &&& l.keymask
    Ready (.launch d a q st) s c → c.released 3 = true → ObjectAt c (c.globalPlace va false) va 64 0 1 false pa f →
    s.launchOf c.g = some l → s.unitOf c.g = some u → l.cancelled = false → clear s c.g l mask l.ctrs.graph →
    (∀ gf gx, u.pending.length < 4 → u.ix ∉ l.ring → s1.reach l.job mask l.ctrs.graph true = .at gf gx →
      let s2 := { s1.setAD gx true with
        units := Assoc.put uk { u with pending := u.pending ++ [({ record := memBytes s.mem pa 64, entered := s1.clock } : Pending)] } s1.units }
      ∃ t, exec (.launch d a q st) s = .next t ∧ Finishes c s2 t c.g d.toNat 0 st.toNat gf (gf + 4) ∧
        t.nat gf 4 = (s1.nat gf 4 + 1) % 2 ^ 32) ∧
    (clear s c.g l l.keymask (l.block + 0x10) →
      ((4 ≤ u.pending.length ∨ u.ix ∈ l.ring) → (∀ base cap head count, s.overflow l = some (base, cap, head, count) → cap ≤ count) →
        ∃ t, exec (.launch d a q st) s = .next t ∧
          Finishes c (s1.noteWalks l.job l.keymask false [l.block + 0x10]) t c.g d.toNat 2 st.toNat 0 0) ∧
      (∀ base cap head count flat f2, (4 ≤ u.pending.length ∨ u.ix ∈ l.ring) → s.overflow l = some (base, cap, head, count) → count < cap →
        (base + 64 * ((head + count) % cap)) % 64 = 0 →
        c.globalPlace (base + 64 * ((head + count) % cap)) true = .here flat f2 → s.shackled flat = false → s.poisoned flat = false →
        c.g.readsStill ((List.range 64).map (fun i => flat + i)) = false →
        ∃ t g', exec (.launch d a q st) s = .next t ∧ Assoc.find c.key t.groups = some g' ∧ g'.kreg d.toNat = 1 ∧
          g'.live c.slot = { c.f with pc := c.f.pc.next } ∧
          Assoc.find c.g.launchid.toNat t.launches = some { l with ring := l.ring ++ [u.ix] } ∧ t.units = s.units ∧ t.issue = none))

/-- 02 R35, R36, 15 R357: CANCEL of a level answers 2 where the counter belongs to no level of the job, live or complete, 1 where the level
is complete, and otherwise 0; then every group of a launch of the level is cancelled and gives up its slot. The other answers change
nothing. It waits while an overflow ring that it must clear is held for migration or shackled. -/
def Sys2Proof.Claims.CancelLevel : Prop :=
  ∀ (d a : BitVec 5) (lv : BitVec 3) (q : BitVec 2) (st : BitVec 3) s c pa f,
    let va := c.kpair a
    let s1 := recorded c va false pa f
    let level := lv.toNat
    let x := s1.levelAt c.g.job level pa
    let some_ := x.launches ≠ [] ∨ x.units ≠ [] ∨ s1.levelAwaited level c.g.job pa = true
    let past := (level, c.g.job, pa, s1.nat (pa + 6) 2) ∈ s1.finished
    Ready (.cancel d a lv q st) s c → ObjectAt c (c.globalPlace va false) va 16 16 1 false pa f → c.g.wait = .none →
    (∀ e ∈ s.rtkt, ∀ o, Assoc.find e.2.op s.ops = some o → o.group ≠ c.key) →
    (¬ some_ → ¬ past → ∃ t, exec (.cancel d a lv q st) s = .next t ∧ Finishes c s1 t c.g d.toNat 2 st.toNat 0 0) ∧
    ((¬ some_ ∧ past) ∨ (some_ ∧ s1.nat pa 4 = 0) →
      ∃ t, exec (.cancel d a lv q st) s = .next t ∧ Finishes c s1 t c.g d.toNat 1 st.toNat 0 0) ∧
    (some_ → s1.nat pa 4 ≠ 0 → s1.cancelWaits level c.g.job pa = none →
      ∃ t, exec (.cancel d a lv q st) s = .next t ∧
        (∃ g', Assoc.find c.key t.groups = some g' ∧ g'.kreg d.toNat = 0 ∧ g'.live c.slot = { c.f with pc := c.f.pc.next }) ∧
        ∀ k g, Assoc.find k s.groups = some g → g.stop ≠ .lost → g.launchid.toNat ∈ x.launches →
          ∃ g', Assoc.find k t.groups = some g' ∧ g'.cancelled = true ∧ g'.resident = false)

namespace Sys2Proof.Claims

/-- Instruction `i`, while its core's copy engine has a free entry and CTRCOPY is not full, hands the engine a command of shape `sh`: it
carries the issuing fragment's lanes and place in program order and what stands before it, CTRCOPY rises by 1, and nothing is moved yet. -/
def Commands (i : Instr) (sh : Ctx → CopyShape) : Prop :=
  ∀ s c, Ready i s c → s.commands c.g.core < 32 → c.g.ctrCopy ≠ 0xFFFF →
    ∃ t g', exec i s = .next t ∧
      t = { s with
        copies := Assoc.put s.nextId { group := c.key, core := c.g.core, owner := c.f.mask, po := c.g.po
                                       pcword := c.f.pc.off ++ c.f.pc.ovl, shape := sh c
                                       view := s.viewOf c.key c.g c.f.mask c.g.po, floor := laneMax c.g.order.floorSys c.f.mask } s.copies
        groups := Assoc.put c.key g' s.groups, ranCopy := t.ranCopy, nextId := s.nextId + 1, issue := none, fresh := s.fresh + 1 } ∧
      Became c g' { c.g with ctrCopy := c.g.ctrCopy + 1, po := c.g.po + 1 } c.f.pc.next 0

/-- A full address pair, and an index array's address and operand check (16 R393). -/
def address (c : Ctx) (a : BitVec 5) : Nat := (c.k a.toNat).toNat + 2 ^ 32 * (c.k (a.toNat + 1)).toNat
def indexArray (c : Ctx) (a : BitVec 5) : Nat := ((c.k (a.toNat + 1)).toNat + 2 ^ 32 * (c.k (a.toNat + 2)).toNat) % 2 ^ 56
def indexRefused (c : Ctx) (a : BitVec 5) : Bool :=
  decide (8 < (c.kf a).toNat / 2 ^ 16 % 16 ∨ (c.kf a).toNat / 2 ^ 20 ≠ 0 ∨ c.k (a.toNat + 3) ≠ 0 ∨ indexArray c a % 4 ≠ 0)

/-- An engine operation that may be worked on: it is not one that waits for a page, a slot, or accesses earlier in program order. -/
structure Works (s : State) (id : Nat) (o : CopyOp) (g : Group) : Prop where
  op : Assoc.find id s.copies = some o
  notMemory : Assoc.find id s.ops = none
  group : Assoc.find o.group s.groups = some g
  ready : s.copyReady id o = true
  sound : o.failed = none
  calm : s.awaiting (.engine id) = false ∧ s.serviceFailed (.engine id) = none
  shape : (∀ d a l, o.shape = .ring d a l → o.slot ≠ none) ∧ ∀ a b n, o.shape ≠ .overlay a b n

end Sys2Proof.Claims

/-- 15 R364 to R367, 16 R385, R393, R394, 18 R449: the copy instructions hand their operands, as they stand at issue, to the copy engine. -/
def Sys2Proof.Claims.CopyCommands : Prop :=
  ∀ (a b e : BitVec 5) (n : BitVec 1),
    let w := fun (c : Ctx) => (c.kf e).toNat
    Commands (.copy a b e n) (fun c => .linear (address c a) (address c b) (w c)) ∧
    Commands (.copy2d a b e n) (fun c => .rows (address c a) (address c b) (w c % 2 ^ 16) (w c / 2 ^ 16)
      (c.k (e.toNat + 1)).toNat (c.k (e.toNat + 2)).toNat) ∧
    Commands (.copyr a b e n) (fun c => .ring (c.kf a).toNat (address c b) (w c)) ∧
    Commands (.gather a b e n) (fun c => .gather (address c a % 2 ^ 56) (address c b % 2 ^ 56) (w c % 2 ^ 16) (w c / 2 ^ 16 % 16)
      (indexArray c e) (indexRefused c e)) ∧
    Commands (.scatter a b e n) (fun c => .scatter (address c a % 2 ^ 56) (address c b % 2 ^ 56) (w c % 2 ^ 16) (w c / 2 ^ 16 % 16)
      (indexArray c e) (indexRefused c e)) ∧
    Commands (.fill a b e) (fun c => .fill (address c a) (c.kf b).toNat (w c))

/-- 17 R432, R434: OVLD releases the group's hold and, by its overlay's table entry, holds the slot that has it (1), binds a free slot and starts
the load (0), or finds none free (2). -/
def Sys2Proof.Claims.OverlayLoad : Prop :=
  ∀ (d : BitVec 5) (im : BitVec 8) (st : BitVec 3) s c addr size,
    let s0 := s.setGroup c.key { c.g with hold := none }
    let sr := c.ovldReads im.toNat
    Ready (.ovld d im st) s c → s.commands c.g.core < 32 → c.g.ctrCopy ≠ 0xFFFF → c.ovldEntry im.toNat = .code addr size →
    (∀ j, s0.slotOf c.g.core c.g.job c.g.code im = some j →
      ∃ t, exec (.ovld d im st) s = .next t ∧ Finishes c sr t { c.g with hold := some j } d.toNat 1 st.toNat 0 0) ∧
    (s0.slotOf c.g.core c.g.job c.g.code im = none → s0.freeSlot c.g.core = none →
      ∃ t, exec (.ovld d im st) s = .next t ∧ Finishes c sr t { c.g with hold := none } d.toNat 2 st.toNat 0 0) ∧
    sr = { s with mem := sr.mem, tlb := sr.tlb, nodes := sr.nodes } ∧
    ∀ j, s0.slotOf c.g.core c.g.job c.g.code im = none → s0.freeSlot c.g.core = some j →
      ∃ t s1, exec (.ovld d im st) s = .next t ∧
        Finishes c s1 t { c.g with hold := some j, ctrCopy := c.g.ctrCopy + 1, po := c.g.po + 1 } d.toNat 0 st.toNat 0 0 ∧
        s1 = { sr with
          slots := s1.slots, ranCopy := s1.ranCopy, nextId := s.nextId + 1
          copies := Assoc.put s.nextId { group := c.key, core := c.g.core, owner := c.f.mask, po := c.g.po
                                         pcword := c.f.pc.off ++ c.f.pc.ovl, shape := .overlay (4 * c.g.core + j) addr size
                                         view := s.viewOf c.key c.g c.f.mask c.g.po
                                         floor := laneMax c.g.order.floorSys c.f.mask } s.copies } ∧
        Assoc.find (4 * c.g.core + j) s1.slots = some {
          job := c.g.job, code := c.g.code, ovl := im, addr := addr, size := size
          loading := some (.group c.key (c.f.pc.off ++ c.f.pc.ovl)) } ∧
        ∀ n, n ≠ 4 * c.g.core + j → n / 4 ≠ c.g.core → Assoc.find n s1.slots = Assoc.find n s.slots

/-- 15 R364, R365, 09 R193, R198: the copy engine reads a source sector into the operation, all as it stood after one moment that is no earlier than
what binds the operation, so, where nothing has been stored to it since, as it stands now; and writes a destination sector whose bytes it has;
each as one access; no register changes. A write waits for a shackled line, and carries no weight data here. (Which of several such moments is a
free choice: the model's, log 10.) -/
def Sys2Proof.Claims.CopyAccesses : Prop :=
  ∀ (s : State) id o g sec, Works s id o g → o.refused = false →
    (∀ va0 vas flat f, s.input = .two id (2 * sec) →
      ((s.sources o).filter (fun va => decide (va / 64 = sec) && (o.got va).isNone)).eraseDups = va0 :: vas →
      s.copyPlace o va0 false = .here flat f → s.poisoned flat = false →
      let as := (va0 :: vas).map (fun va => flat + va - va0)
      s.copyHeld o (some as) = false →
      ∃ t o' r, exec .accessTakesEffect s = .next t ∧ Assoc.find id t.copies = some o' ∧
        s.copyFloor o as f ≤ r ∧ (∀ va, va ∈ va0 :: vas → o'.got va = some (s.pastByte (flat + va - va0) r)) ∧
        ((∀ m ∈ s.hist, s.copyFloor o as f < m.time → ∀ a ∈ as, m.wrote a = false) →
          ∀ va, va ∈ va0 :: vas → o'.got va = some (s.byte (flat + va - va0))) ∧ (∀ va, va ∉ va0 :: vas → o'.got va = o.got va) ∧
        o' = { o with buf := o'.buf, hot := o'.hot, seen := o'.seen } ∧ SameRegisters s t ∧
        ∀ x, (∀ p, f = some p → p.cached = true ∨ x < p.pte ∨ p.pte + 8 ≤ x) → t.byte x = s.byte x) ∧
    (∀ c0 cs flat f, s.input = .two id (2 * sec + 1) → sec ∈ s.unwritten o → s.sectorBytes o sec = some (c0 :: cs) →
      s.copyPlace o c0.1 true = .here flat f → s.hotSources o sec = [] → s.shackled flat = false →
      (∀ x ∈ o.indexBytes, o.got x ≠ none) →
      let s1 := s.copyReach o c0.1 true f
      let cells := (c0 :: cs).map (fun x => (flat + x.1 - c0.1, x.2))
      s.copyHeld o (some (cells.map (fun x => x.1))) = false → s.copyReads o (cells.map (fun x => x.1)) = false → s1.spoiled cells = [] →
      ∃ t o', exec .accessTakesEffect s = .next t ∧ Assoc.find id t.copies = some o' ∧
        o' = { o with done := Assoc.put sec true o.done, seen := o'.seen } ∧
        (∀ x, t.byte x = overwritten cells x (s1.byte x)) ∧ SameRegisters s t)

/-- 15 R365, 16 R385, R394: what a destination byte of a sector is, where source and destination do not overlap: for COPY the byte of the source as
far from its start, for FILL the byte of the pattern that its address selects. -/
def Sys2Proof.Claims.CopyMovesBytes : Prop :=
  ∀ (s : State) (o : CopyOp) sec cells, s.sectorBytes o sec = some cells →
    (∀ dst src len, o.shape = .linear dst src len →
      (∀ i j f1 f2 p1 p2, i < len → j < len → s.copyPlace o (dst + i) true = .here f1 p1 → s.copyPlace o (src + j) false = .here f2 p2 → f1 ≠ f2) →
      (∀ i < len, (dst + i) / 64 = sec → ∃ b, o.got (src + i) = some b ∧ (dst + i, b) ∈ cells) ∧
      ∀ x ∈ cells, ∃ i < len, x.1 = dst + i ∧ x.1 / 64 = sec ∧ o.got (src + i) = some x.2) ∧
    (∀ dst pattern len, o.shape = .fill dst pattern len →
      (∀ i < len, (dst + i) / 64 = sec → (dst + i, BitVec.ofNat 8 (pattern / 2 ^ (8 * ((dst + i) % 4)))) ∈ cells) ∧
      ∀ x ∈ cells, ∃ i < len, x.1 = dst + i ∧ x.1 / 64 = sec ∧ x.2 = BitVec.ofNat 8 (pattern / 2 ^ (8 * (x.1 % 4))))

/-- 15 R364, 08 R179: a copy operation all of whose sectors have been read and written is over: it leaves the engine, and CTRCOPY falls by 1,
with no byte and no register changed. One whose operand is refused fails with KIND 0x01, left pending. -/
def Sys2Proof.Claims.CopyCompletes : Prop :=
  ∀ s id o g, s.input = .one id → Works s id o g → (∀ d a l, o.shape ≠ .ring d a l) →
    let ends := fun t => exec .copyEngineOpComplete s = .next t ∧ Assoc.find id t.copies = none ∧
      (∀ k, k ≠ id → Assoc.find k t.copies = Assoc.find k s.copies) ∧ SameRegisters s t ∧ (∀ x, t.byte x = s.byte x)
    ((∀ d b n z x r, o.shape = .gather d b n z x r → r = false) → (∀ d b n z x r, o.shape = .scatter d b n z x r → r = false) →
      (∀ va ∈ s.sources o, o.got va ≠ none) → s.unwritten o = [] → o.sent = [] →
      ∃ t, ends t ∧ ∃ g', Assoc.find o.group t.groups = some g' ∧ g' = { g with ctrCopy := g.ctrCopy - 1, order := g'.order }) ∧
    ((∃ d b n z x, o.shape = .gather d b n z x true ∨ o.shape = .scatter d b n z x true) → Assoc.find 0 g.fails = none →
      ∃ t, ends t ∧ ∃ g', Assoc.find o.group t.groups = some g' ∧
        g' = { g with
          ctrCopy := g.ctrCopy - 1, fails := Assoc.put 0 { trap := { kind := 0x01 }, pcword := o.pcword } g.fails, order := g'.order })

namespace Sys2Proof.Claims

/-- A matrix instruction that may start: it stands at issue in a whole group with all lanes, its checks pass, the unit of its partition is
awake and holds nothing, and no matrix failure is pending. -/
structure MatrixReady (i : Instr) (s : State) (c : Ctx) : Prop where
  ready : Ready i s c
  whole : c.f.mask = BitVec.allOnes 32 ∧ c.g.sptr = 0 ∧ c.g.live1.kind ≠ 1
  checks : c.matrixTraps i = []
  here : ∀ x ∈ (c.matrixChecks i).1 ++ (c.matrixChecks i).2, ∃ flat f, x.place = .here flat f
  free : c.g.matrixOp = none ∧ s.muHolder c.g.partNo = none ∧ c.g.ctrMatrix ≠ 0xFFFF ∧ (s.part c.g.partNo).mu = .awake
  sound : Assoc.find 1 c.g.fails = none
  room : (∃ a y, i = .zsta a y) → s.zstaOn (dieOf c.g.core) < 64

/-- The instruction is in flight: the group's operation holds it with the source tile and its tag as they stood, CTRMATRIX has risen, the
destination tile is busy; no tile and no byte outside the tables that translate its operands has changed. -/
def StartsMatrix (i : Instr) (src dst : Option (BitVec 3)) : Prop :=
  ∀ s c, MatrixReady i s c →
    ∃ t g' o, exec i s = .next t ∧ Assoc.find c.key t.groups = some g' ∧ g'.matrixOp = some o ∧ o.instr = i ∧
      o.pcword = c.f.pc.off ++ c.f.pc.ovl ∧ o.po = c.g.po ∧ o.part = c.g.partNo ∧ o.lines = [] ∧ o.banks = [] ∧ o.written = [] ∧
      (∀ z, src = some z → o.srcTag = BitVec.ofNat 5 (c.g.ztag.toNat / 2 ^ (8 * z.toNat)) ∧
        ∀ a < 64, ∀ b < 64, o.src a b = c.g.tile z.toNat a b) ∧
      g' = { c.g with
        matrixOp := some o, ctrMatrix := c.g.ctrMatrix + 1, po := c.g.po + 1
        busy := match dst with | some z => c.g.busy ++ [.z z.toNat] | none => c.g.busy
        live0 := g'.live0, live1 := g'.live1, readyAt := g'.readyAt, lastSlot := g'.lastSlot, issues := g'.issues, hazards := g'.hazards, geoOp := g'.geoOp
        spillTouched := g'.spillTouched } ∧
      g'.live c.slot = { c.f with pc := c.f.pc.next } ∧
      (∀ x, (∀ y ∈ (c.matrixChecks i).1 ++ (c.matrixChecks i).2, ∀ flat f, y.place = .here flat (some f) →
        f.cached = true ∨ x < f.pte ∨ f.pte + 8 ≤ x) →
        t.byte x = s.byte x) ∧
      t = { s with groups := t.groups, parts := t.parts, mem := t.mem, tlb := t.tlb, nodes := t.nodes, issue := none, fresh := s.fresh + 1 }

/-- Micro-tile `m` of group `key`'s operation is the next to run, and may: earlier accesses have taken effect, and nothing it reads is
poisoned. None of its lines has been read yet; its group is not cancelled. -/
structure TileNext (s : State) (key m : Nat) (g : Group) (o : MatrixOp) : Prop where
  input : s.input = .one key
  group : Assoc.find key s.groups = some g
  op : g.matrixOp = some o
  next : m < 16 ∧ g.mtmask.getLsbD m = false ∧ ∀ k < m, g.mtmask.getLsbD k = true
  ready : s.engineReady key o.po (BitVec.allOnes 32) = true
  sound : o.poisonedAt s (o.reads m) = none ∧ g.tilePoisonAt o m = false ∧ g.cancelled = false
  fresh : o.lines = [] ∧ o.banks = []

/-- Micro-tile `m` has completed: its 256 elements of tile `z` have the values `f`, the tile has the tag, bit m of MTMASK is set, its unit
has worked now (03 R72), and no other element, register or byte has changed. -/
def TileDone (s : State) (key m z : Nat) (g : Group) (tag : BitVec 5) (f : Nat → Nat → Word) : Prop :=
  ∃ t g', exec .microTileComplete s = .next t ∧ t = { s with input := .none, parts := t.parts, groups := Assoc.put key g' s.groups } ∧
    (∀ o n, g.matrixOp = some o → t.part n = if n = o.part then { s.part n with ranMatrix := true, muLast := s.clock } else s.part n) ∧
    (∀ i < 64, ∀ j < 64, g'.tile z i j = if i / 16 = m / 4 ∧ j / 16 = m % 4 then f i j else g.tile z i j) ∧
    (∀ y i j, y ≠ z → i < 64 → j < 64 → g'.tile y i j = g.tile y i j) ∧
    g'.mtmask = g.mtmask ||| BitVec.ofNat 16 (2 ^ m) ∧ g'.tileTag z = tag ∧ (∀ y < 8, y ≠ z → g'.tileTag y = g.tileTag y) ∧
    g' = { g with tiles := g'.tiles, ztag := g'.ztag, mtmask := g'.mtmask, matrixOp := g'.matrixOp, imgPoison := g'.imgPoison }

/-- The four bytes at a virtual address of an operation, lowest first. -/
def tileWord (s : State) (o : MatrixOp) (a : Nat) : Word :=
  s.byte (o.flat (a + 3)) ++ s.byte (o.flat (a + 2)) ++ s.byte (o.flat (a + 1)) ++ s.byte (o.flat a)

/-- Row `i` of an MMA operand's vectors as one number, and whether the code of an element or scale in it is refused (05 R116). -/
def vector (s : State) (o : MatrixOp) (d i : Nat) : Nat := o.spanNat s (dBase d + dPitch d * i) (vecSpan (dFmt d) (dK o.descA))
def accepted (s : State) (o : MatrixOp) (m : Nat) : Prop :=
  ∀ n < 16, refusals (dFmt o.descA) (vector s o o.descA (16 * (m / 4) + n)) (dK o.descA) 0 n true = [] ∧
    refusals (dFmt o.descB) (vector s o o.descB (16 * (m % 4) + n)) (dK o.descA) 1 n true = []

/-- Integer element `k` of a vector. -/
def intAt (t : BitVec 5) (v k : Nat) : Int := match intElem t v k with | .ok x => x | .error _ => 0

/-- Cells stored as software stores them spoil no object in use (02 R34; 08 R165, R173), whatever of them is stored already. -/
def Unspoiled (s : State) (cells : List Host.Cell) : Prop :=
  ∀ mem, (∀ x, (∀ c ∈ cells, c.1 ≠ x) → ({ s with mem := mem } : State).byte x = s.byte x) → ({ s with mem := mem } : State).spoiled cells = []

/-- A matrix operation that has done its work may complete: all micro-tiles done, or none to do; earlier accesses made, outputs free;
its group is not cancelled. -/
structure MatrixLast (s : State) (key : Nat) (g : Group) (o : MatrixOp) : Prop where
  input : s.input = .one key
  group : Assoc.find key s.groups = some g
  op : g.matrixOp = some o
  ready : s.engineReady key o.po (BitVec.allOnes 32) = true
  free : s.outputsFree key g o = true
  sound : s.outputPoison g o = none
  normal : o.replay = false ∧ o.nan = none ∧ g.cancelled = false

/-- Element (i, j) of a tile in memory (18 R474). -/
def elementVa (o : MatrixOp) (i j : Nat) : Nat := dBase o.descA + dPitch o.descA * i + 4 * j

/-- The operation's 64 rows of 256 bytes reach distinct bytes of memory. -/
def Distinct (o : MatrixOp) : Prop :=
  256 ≤ dPitch o.descA ∧ ∀ i < 64, ∀ n < 256, ∀ i' < 64, ∀ n' < 256,
    o.flat (elementVa o i 0 + n) = o.flat (elementVa o i' 0 + n') → i = i' ∧ n = n'

/-- The group after its matrix operation: the operation is gone and CTRMATRIX has fallen. -/
def Ended (g g' : Group) : Prop :=
  g'.matrixOp = none ∧ g'.ctrMatrix = g.ctrMatrix - 1 ∧ g'.tiles = g.tiles ∧ g'.ztag = g.ztag ∧
  g' = { g with
    matrixOp := none, ctrMatrix := g'.ctrMatrix, busy := g'.busy, mtmask := g'.mtmask, qhist := g'.qhist, fnan := g'.fnan
    order := g'.order, imgPoison := g'.imgPoison }

end Sys2Proof.Claims

/-- 17 R422, 16 R396, 17 R441, 18 R475 to R481, 10 R233: the matrix instructions start in their group's matrix unit, having read their source
tile; the work is that of the micro-tiles and of the completion. TPREF changes nothing; a reserved bit of its descriptor, a PITCH64 below 4 and an
unaligned BASE trap (18 R474; that R462's "never faults" leaves these traps is the model's reading, log 143). -/
def Obligations.MatrixStarts : Prop :=
  ∀ (z y : BitVec 3) (a b : BitVec 5) (h im acc u : BitVec 1) (n r cv t : BitVec 2),
    StartsMatrix (.mma z a b y im acc) (if acc = 1 then some y else none) (some z) ∧
    StartsMatrix (.hadt z y h n) (some y) (some z) ∧
    StartsMatrix (.qtile a b y im u t) (if im = 1 then none else some y) none ∧
    StartsMatrix (.zld z a im) none (some z) ∧
    StartsMatrix (.zst a y) (some y) none ∧
    StartsMatrix (.zsta a y) (some y) none ∧
    StartsMatrix (.zzero z im) none (some z) ∧
    StartsMatrix (.zcvt z y r cv) (some y) (some z) ∧
    StartsMatrix (.zmov z y h) (some y) (some z) ∧
    (let sound := fun c : Ctx => bitsOf (c.kquad a) 56 28 = 0 ∧ 4 ≤ bitsOf (c.kquad a) 84 12
     let aligned := fun c : Ctx => dBase (c.kquad a) % 64 = 0
     Moves (.tpref a) (fun c => sound c ∧ aligned c) (fun c => c.g) (fun c => c.f.pc.next) 0 ∧
     Traps (.tpref a) (fun c => ¬ sound c ∧ aligned c) (fun _ => { kind := 0x01 }) ∧
     Traps (.tpref a) (fun c => sound c ∧ ¬ aligned c) (fun c => { kind := 0x06, addr := dBase (c.kquad a) }))

/-- 10 R233, R234, 17 R422, 18 R475, R476, R477, R481, 16 R396: a micro-tile updates its 256 elements together: of ZLD from memory, of ZZERO with 0,
of ZMOV from the source or its transpose, of ZCVT by conversion, of MMA with INT the exact sum of products modulo 2^32, of MMA otherwise
the products accumulated in FP32, of HADT the signed sums. -/
def Sys2Proof.Claims.MicroTiles : Prop :=
  ∀ s key m g o, TileNext s key m g o →
    let is := fun i => o.instr = i
    (∀ z a im, is (.zld z a im) →
      TileDone s key m z.toNat g (if im = 1 then 0x01 else 0x03) (fun i j => tileWord s o (elementVa o i j))) ∧
    (∀ z im, is (.zzero z im) → TileDone s key m z.toNat g (if im = 1 then 0x01 else 0x03) (fun _ _ => 0)) ∧
    (∀ z y tr, is (.zmov z y tr) → TileDone s key m z.toNat g o.srcTag (fun i j => if tr = 1 then o.src j i else o.src i j)) ∧
    (∀ z y r, is (.zcvt z y r 1) →
      TileDone s key m z.toNat g 0x03 (fun i j => BitVec.ofNat 32 (fp32.ofInt r.toNat (o.src i j).toInt).code)) ∧
    (∀ z y r, is (.zcvt z y r 0) →
      TileDone s key m z.toNat g 0x01 (fun i j =>
        BitVec.ofInt 32 (toInteger r.toNat (-(2 ^ 31)) (2 ^ 31 - 1) (fp32.decode (o.src i j).toNat)).1)) ∧
    (∀ z a b y acc, is (.mma z a b y 1 acc) → accepted s o m →
      TileDone s key m z.toNat g 0x01 (fun i j =>
        BitVec.ofInt 32 ((if acc = 1 then (o.src i j).toInt else 0) + ((List.range (dK o.descA)).map (fun k =>
          intAt (dFmt o.descA) (vector s o o.descA i) k * intAt (dFmt o.descB) (vector s o o.descB j) k)).sum))) ∧
    (∀ z a b y acc, is (.mma z a b y 0 acc) → accepted s o m →
      TileDone s key m z.toNat g 0x03 (fun i j =>
        BitVec.ofNat 32 (accumulate (o.site j) (if acc = 1 then some (o.src i j).toNat else none)
          ((List.range (dK o.descA)).map (fun k =>
            (scaledElem (o.site j) (dFmt o.descA) (vector s o o.descA i) k (dScale o.descA) (dK o.descA)).times (o.site j)
              (scaledElem (o.site j) (dFmt o.descB) (vector s o o.descB j) k (dScale o.descB) (dK o.descA))))).1)) ∧
    (∀ z y h n, is (.hadt z y h n) →
      let size := 16 * 2 ^ n.toNat
      TileDone s key m z.toNat g 0x03 (fun i j =>
        let p := if h = 1 then i else j
        let first := p / size * size
        (hadamard (o.site j) ((List.range size).map (fun k =>
          (if h = 1 then o.src (first + k) j else o.src i (first + k)).toNat)) (p - first) (if n = 0 then 2 else 3)).1))

/-- 10 R234, 18 R478, R479, 17 R441: a matrix operation completes: MTMASK returns to 0, CTRMATRIX falls, the destination tile is free; ZST has
stored the source tile, ZSTA has added it to what memory held, QTILE has stored its codes. -/
def Sys2Proof.Claims.MatrixCompletes : Prop :=
  ∀ s key g o, MatrixLast s key g o →
    let does := fun (p : State → Group → Prop) => ∃ t g', exec .matrixOpComplete s = .next t ∧ Assoc.find key t.groups = some g' ∧ Ended g g' ∧
      SameRegisters s t ∧ p t g'
    (∀ z tag, o.dest = some (z, tag) → g.mtmask = 0xFFFF → o.dirty = [] →
      does (fun t g' => g'.mtmask = 0 ∧ (∀ r, r ∈ g'.busy ↔ r ∈ g.busy ∧ r ≠ .z z) ∧ ∀ x, t.byte x = s.byte x)) ∧
    (∀ a y, o.instr = .zst a y → o.written = [] → Distinct o → Unspoiled s (o.tileCells.map (fun c => (o.flat c.1, c.2))) →
      does (fun t _ => (∀ i < 64, ∀ j < 64, tileWord t o (elementVa o i j) = o.src i j) ∧
        ∀ x, (∀ i < 64, ∀ n < 256, x ≠ o.flat (elementVa o i 0 + n)) → t.byte x = s.byte x)) ∧
    (∀ a y, o.instr = .zsta a y → Distinct o → (∀ i < 64, ∀ j < 64, ∀ n < 4, o.flat (elementVa o i j + n) = o.flat (elementVa o i j) + n) →
      s.spoiled (o.sums s).1 = [] →
      does (fun t _ => (∀ i < 64, ∀ j < 64, tileWord t o (elementVa o i j) =
          if o.srcTag = 0x01 then tileWord s o (elementVa o i j) + o.src i j
          else BitVec.ofNat 32 (fp32.add 0 (o.site j) (fp32.decode (tileWord s o (elementVa o i j)).toNat) (fp32.decode (o.src i j).toNat)).code) ∧
        ∀ x, (∀ i < 64, ∀ n < 256, x ≠ o.flat (elementVa o i 0 + n)) → t.byte x = s.byte x)) ∧
    (∀ a b y mem u t_, o.instr = .qtile a b y mem u t_ → o.written = [] → o.lines = [] → o.banks = [] →
      let out := (o.qOutput s g (decide (mem = 1)) (decide (u = 1)) t_.toNat).1
      (out.map (fun c => o.flat c.1)).Nodup → Unspoiled s (out.map (fun c => (o.flat c.1, c.2))) →
        (∀ c ∈ out, ∀ r ∈ o.reads 0, ∀ n < r.2, o.flat c.1 ≠ o.flat r.1 + n) →
      does (fun t _ => (∀ c ∈ out, t.byte (o.flat c.1) = c.2) ∧ ∀ x, (∀ c ∈ out, x ≠ o.flat c.1) → t.byte x = s.byte x))

namespace Sys2Proof.Claims

/-- The shape of a geometric instruction: points, coordinates of a point, lifted column or not, opcode (06 R123, R124). -/
structure GeoForm where
  points : Nat
  dim : Nat
  opcode : Nat

/-- Registers of an operand block. -/
def GeoForm.count (x : GeoForm) (f32 : Bool) : Nat := x.points * x.dim * (if f32 then 1 else 2)

/-- What an instruction passes to its evaluation: the operand block and the lanes' indices. -/
def geoBlock (c : Ctx) (a : BitVec 6) (n : Nat) : List (Lanes Word) := (List.range n).map (fun i => c.val a i)
def geoIndex (c : Ctx) (im : BitVec 6) (sos : Bool) : Lanes Word := if sos then c.val im else Lanes.fill 0

/-- The stage code of a lane in a pair of GEOSTG words (06 R134). -/
def stageOf (codes : BitVec 64) (l : Nat) : Nat := codes.toNat / 2 ^ (2 * l) % 4

/-- Whether every coordinate of a lane is finite: no exponent field has all ones. -/
def GeoForm.finite (x : GeoForm) (f32 : Bool) (c : Ctx) (a : BitVec 6) (l : Nat) : Bool :=
  (List.range (x.points * x.dim)).all (fun i =>
    if f32 then decide ((lane (c.val a i) l).toNat / 2 ^ 23 % 2 ^ 8 ≠ 2 ^ 8 - 1)
    else decide ((lane (c.val a (2 * i + 1)) l).toNat / 2 ^ 20 % 2 ^ 11 ≠ 2 ^ 11 - 1))

/-- The geometric instructions with what they take. -/
def geoForms (d a im : BitVec 6) (x y f : BitVec 1) : List (Instr × GeoForm) :=
  [(.orient2 d a im x y f, ⟨3, 2, 0x50⟩), (.orient3 d a im x y f, ⟨4, 3, 0x51⟩), (.incirc d a im x y f, ⟨4, 2, 0x52⟩),
   (.insph d a im x y f, ⟨5, 3, 0x53⟩), (.segx d a im x y f, ⟨4, 2, 0x54⟩)]

/-- Geometric instruction `i`, ready with operand tags that it accepts and, without `.nf`, finite coordinates in the lanes not yet decided,
completes its stage 0 and leaves the lanes that stage 0 does not decide to the EPU. GEOSTG is written at completion, from the codes that
the instruction in flight holds (06 R134). -/
def GeometricIssue (i : Instr) (x : GeoForm) (d a im : BitVec 6) (sos nf f32 : Bool) : Prop :=
  ∀ s c, Ready i s c → c.takes a (x.count f32) (fun t => decide (t = if f32 then 0x03 else 0x04)) →
    (sos = true → c.takes im 1 integerTag) →
    let block := geoBlock c a (x.count f32)
    let decided := fun l => c.g.geodone.getLsbD l
    let finite := x.finite f32 c a
    let result := fun l => laneDecision x.opcode sos f32 block (geoIndex c im sos) l
    let dest := c.g.lbase + d.toNat
    (nf = true ∨ ∀ l ∈ lanesOf c.f.mask, decided l = false → finite l = true) →
    ∃ t g' o, exec i s = .next t ∧
      t = { s with groups := Assoc.put c.key g' s.groups, nextId := s.nextId + 1, issue := none, fresh := s.fresh + 1 } ∧
      g'.geoOp = some o ∧ o.block = block ∧ o.index = geoIndex c im sos ∧ o.dest = dest ∧ o.opcode = x.opcode ∧ o.sos = sos ∧ o.f32 = f32 ∧
      o.mask = c.f.mask ∧
      (∀ l : Fin 32,
        let now := c.f.mask.getLsbD l.val && !decided l.val
        o.open_.getLsbD l.val = (now && finite l.val && decide ((result l.val).2 ≠ 0)) ∧
        g'.geodone.getLsbD l.val = (c.f.mask.getLsbD l.val && !o.open_.getLsbD l.val) ∧
        (g'.line dest)[l] = (if now && !finite l.val then (if x.opcode = 0x54 then 3 else 2)
          else if now && !o.open_.getLsbD l.val then BitVec.ofInt 32 (result l.val).1 else (c.g.line dest)[l]) ∧
        stageOf o.codes l.val = (if now && finite l.val && !o.open_.getLsbD l.val then 0
          else if c.f.mask.getLsbD l.val && decided l.val then stageOf c.g.geostg l.val else 3)) ∧
      g'.tagByte dest = 0x01 ∧ g'.geocnt = c.g.geocnt + BitVec.ofNat 32 (lanesOf o.open_).length ∧
      (∀ n, n % 256 ≠ dest % 256 → g'.line n = c.g.line n) ∧ (∀ n, n ≠ dest → g'.tagByte n = c.g.tagByte n) ∧
      g'.live c.slot = { c.f with pc := c.f.pc.next } ∧ g'.live (!c.slot) = c.g.live (!c.slot) ∧
      g' = { c.g with
        live0 := g'.live0, live1 := g'.live1, readyAt := c.now + 1, lastSlot := g'.lastSlot, issues := g'.issues, hazards := g'.hazards
        lines := g'.lines, ltags := g'.ltags, busy := c.g.busy ++ [.v dest]
        geodone := g'.geodone, geocnt := g'.geocnt, geoOp := g'.geoOp }

/-- The number that a dyadic pair stands for. -/
def number (x : Dy) : ℚ := (x.m : ℚ) * (2 : ℚ) ^ x.e

end Sys2Proof.Claims

/-- 06 R123, R124, R129, R130, R139, R141, 14 R322: the geometric instructions issue: lanes that stage 0 decides have their result and
stage code 0, with `.nf` a non-finite lane has 2 (SEGX 3) and code 3, the others await the EPU and are counted. That D has its tag at issue, and
that GEODONE bits of other lanes drop then, are the model's choices (log 141). -/
def Sys2Proof.Claims.GeometricInstructions : Prop :=
  ∀ (d a im : BitVec 6) (x y f : BitVec 1),
    let form := fun i w => GeometricIssue i w d a im (decide (x = 1)) (decide (y = 1)) (decide (f = 1))
    form (.orient2 d a im x y f) ⟨3, 2, 0x50⟩ ∧ form (.orient3 d a im x y f) ⟨4, 3, 0x51⟩ ∧
    form (.incirc d a im x y f) ⟨4, 2, 0x52⟩ ∧ form (.insph d a im x y f) ⟨5, 3, 0x53⟩ ∧ form (.segx d a im x y f) ⟨4, 2, 0x54⟩

/-- 06 R123, R130, R131: the exact value of ORIENT2 is (ax − cx)(by − cy) − (ay − cy)(bx − cx); a lane that stage 2 decides without `.sos`
has its sign; and a zero permanent without `.sos` gives 0 at stage 0. -/
def Sys2Proof.Claims.GeometricDecision : Prop :=
  (∀ ax ay bx by_ cx cy : Dy,
    number (evalExact false [[ax, ay], [bx, by_], [cx, cy]]) =
      (number ax - number cx) * (number by_ - number cy) - (number ay - number cy) * (number bx - number cx)) ∧
  (∀ lift pts, (predicate lift false pts).2 = 2 → (predicate lift false pts).1 = signOf (evalExact lift (pts.map (fun x => x.2))).m) ∧
  (∀ lift pts, (evalT0 lift (pts.map (fun x => x.2))).bad = false → (evalP0 lift (pts.map (fun x => x.2))).m = 0 →
    (evalT0 lift (pts.map (fun x => x.2))).v.m = 0 → predicate lift false pts = (0, 0)) ∧
  ∀ lift sos pts, (predicate lift sos pts).1 ∈ [-1, 0, 1] ∧ (predicate lift sos pts).2 ≤ 2

/-- 06 R129, R139: without `.nf` a non-finite coordinate in an active lane not yet decided is a geometric-operand fault with those lanes, and
nothing else changes; for each of the geometric instructions. -/
def Sys2Proof.Claims.GeometricOperandFault : Prop :=
  ∀ (d a im : BitVec 6) (x f : BitVec 1) s c, ∀ e ∈ geoForms d a im x 0 f, Ready e.1 s c →
    c.takes a (e.2.count (decide (f = 1))) (fun t => decide (t = if f = 1 then 0x03 else 0x04)) → (x = 1 → c.takes im 1 integerTag) →
    let bad := maskOf (fun l => c.f.mask.getLsbD l && !c.g.geodone.getLsbD l && !e.2.finite (decide (f = 1)) c a l)
    bad ≠ 0 → exec e.1 s = .next (groupStop s c.key c.slot c.f.pc { kind := 0x0A, lanes := bad })

/-- 06 R130, R132, R135, R136, R140: the EPU decides a lane, with the decision of its stage; the instruction completes when none is open;
a reset of the EPU stops those that may stop part-way and marks the others' lanes to run again, which happens when it ends. -/
def Sys2Proof.Claims.EpuSteps : Prop :=
  (∀ s key l g o, s.input = .two key l → Assoc.find key s.groups = some g → g.geoOp = some o → l < 32 → o.open_.getLsbD l = true →
    s.epuResetting g.core = false → s.epuAhead g.core o.stamp l < 8 → g.geoPoison o = none →
    let d := laneDecision o.opcode o.sos o.f32 o.block o.index l
    ∃ g', exec .epuLaneDecided s = .next { s with input := .none, groups := Assoc.put key g' s.groups } ∧
      (∀ j : Fin 32, (g'.line o.dest)[j] = if j.val = l then BitVec.ofInt 32 d.1 else (g.line o.dest)[j]) ∧
      (∀ n, n % 256 ≠ o.dest % 256 → g'.line n = g.line n) ∧
      ∃ codes, stageOf codes l = d.2 % 4 ∧ (∀ j < 32, j ≠ l → stageOf codes j = stageOf o.codes j) ∧ g' = { g with
        lines := g'.lines, geodone := g.geodone ||| BitVec.ofNat 32 (2 ^ l)
        geocnt := g.geocnt + (if d.2 = 2 then 1 else 0)
        geoOp := some { o with codes := codes, open_ := o.open_ &&& ~~~(BitVec.ofNat 32 (2 ^ l)), rerun := o.rerun &&& ~~~(BitVec.ofNat 32 (2 ^ l)) } }) ∧
  (∀ s key g o, s.input = .one key → Assoc.find key s.groups = some g → g.geoOp = some o → o.open_ = 0 →
    ∃ g', exec .geometricComplete s = .next { s with input := .none, groups := Assoc.put key g' s.groups } ∧
      (∀ r, r ∈ g'.busy ↔ r ∈ g.busy ∧ r ≠ .v o.dest) ∧
      g' = { g with
        geoOp := none, geodone := 0, geostg := o.codes, busy := g'.busy, hazards := g'.hazards, absent := g'.absent, frec := g'.frec
        imgPoison := g'.imgPoison } ∧
      (o.mask ≠ BitVec.allOnes 32 → g'.absent = g.absent ∧ g'.frec = g.frec ∧ g'.imgPoison = g.imgPoison)) ∧
  (∀ s core, s.input = .one core →
    ∃ t, exec .epuReset s = .next t ∧ t.epuResetting core = true ∧
      t = { s with input := .none, groups := t.groups, parts := t.parts } ∧
      ∀ key, ((Assoc.find key s.groups).map (fun g => g.core) ≠ some core → Assoc.find key t.groups = Assoc.find key s.groups) ∧
        ∀ g o, Assoc.find key s.groups = some g → g.core = core → g.geoOp = some o → o.open_ ≠ 0 →
          ∃ g', Assoc.find key t.groups = some g' ∧ g'.lines = g.lines ∧ g'.geodone = g.geodone ∧
            (g.geoStoppable o = true → g'.geoOp = none ∧ g'.geostg = o.codes ∧ (g'.live o.slot).pc = o.pc) ∧
            (g.geoStoppable o = false → g' = { g with geoOp := some { o with rerun := o.open_ } })) ∧
  ∀ s core, s.input = .one core → s.epuResetting core = true →
    ∃ t, exec .epuResetEnd s = .next t ∧ t.epuResetting core = false ∧
      t = { s with input := .none, groups := t.groups, parts := t.parts } ∧
      ∀ key g o, Assoc.find key s.groups = some g → g.core = core → g.geoOp = some o →
        Assoc.find key t.groups = some
          { g with geocnt := g.geocnt + BitVec.ofNat 32 (lanesOf o.rerun).length, geoOp := some { o with rerun := 0 } }

namespace Sys2Proof.Claims

/-- A record with its launch passes admission (02 R27): no cancelled level, a usable block that can be written now, sound fields, no capture,
overlay entries in order, no refused page; and it names no predecessor. -/
structure Passes (s : State) (b : List Byte) (id : Nat) (l : Launch) (w : Waiter) : Prop where
  new : Assoc.find id s.launches = none
  live : s.levelCancelled l = false
  block : s.blockWaits l = false ∧ s.blockUsable l = true
  flags : l.flags.toNat % 256 = 1 ∧ l.flags.toNat / 2 ^ 12 = 0 ∧ fieldOf b 0x26 2 = 0
  entries : (0 < l.ncopy → l.entcopy.toNat < 2 ^ 22) ∧ (0 < l.nmatrix → l.entmatrix.toNat < 2 ^ 22) ∧ (0 < l.nvector → l.entvector.toNat < 2 ^ 22)
  units : l.units ≠ 0 ∧ 1 ≤ l.perclu ∧ l.perclu ≤ 16 ∧
    (if l.flags.getLsbD 11 then l.units % l.perclu = 0 else l.perclu = 1)
  groups : 1 ≤ l.ncopy + l.nmatrix + l.nvector ∧ l.ncopy + l.nmatrix + l.nvector ≤ 32
  sizes : 8 ≤ l.frame ∧ l.frame ≤ 48 ∧ l.frame % 8 = 0 ∧ l.spad % 256 = 0 ∧ l.spad ≤ 2 ^ 21
  pages : s.serviceFailed w = none ∧ s.checkTable l = .pass
  first : l.deps = 0 ∧ l.ctrs.priorph = 0

/-- The launch `l` as it stands right after an admission without predecessors and without a weight generation. -/
def admitted (s : State) (l : Launch) : Launch := { l with wgen := 0, capture := none, heldSince := s.clock, held := false }

/-- Only group `key` has changed, to `g'`, and the step's input is spent. -/
def OnlyGroup (s t : State) (key : Nat) (g' : Group) : Prop := t = { s with input := .none, groups := Assoc.put key g' s.groups }

/-- A launch's counter where the device reaches it, and what one completion leaves in it (02 R31): REMAIN falls by 1, STATUS takes the bits. -/
def FellBy1 (s t : State) (flat bits : Nat) : Prop :=
  t.nat flat 4 = s.nat flat 4 - 1 ∧ t.nat (flat + 4) 2 = Nat.lor (s.nat (flat + 4) 2) bits

/-- The device can write a counter of a launch, at `va`, now: its page is reached, its line is not shackled, no earlier access to it waits,
and it does not lie in the entry that translates it (10 R231, 07 R157). -/
def Counts (s : State) (l : Launch) (va flat : Nat) (f : Found) : Prop :=
  va % 16 = 0 ∧ s.reach l.job l.keymask va true = .at flat f ∧ s.shackled flat = false ∧ s.deviceOpen l.job va = false ∧
  (flat + 16 ≤ f.pte ∨ f.pte + 8 ≤ flat)

end Sys2Proof.Claims

/-- 02 R27, R40, 03 R53, R54: a submission entry that fails its check is discarded with QSTAT.ERR and a report; an entry, or a unit's oldest
pending record 64 cycles after it entered, that passes is admitted, and QHEAD or the unit's queue moves on. The device's walks change nothing but A
and D bits and what is cached of the tables. -/
def Sys2Proof.Claims.LaunchesAdmitted : Prop :=
  (∀ s job mask write vas, ∃ mem tlb nodes, State.noteWalks s job mask write vas = { s with mem := mem, tlb := tlb, nodes := nodes }) ∧
  (∀ s q, s.input = .one q → s.queueReady q = true →
    let head := s.ctlNat .sched (0x1000 + 0x20 * q + 0xA) 2
    let cap := s.ctlNat .sched (0x1000 + 0x20 * q + 8) 2
    let e := memBytes s.mem (s.ctlNat .sched (0x1000 + 0x20 * q) 8 + 64 * head) 64
    s.homeWaits (s.ctlNat .sched (0x1000 + 0x20 * q) 8 + 64 * head) = false →
    (s.badEntry e = true → ∃ t, exec .submissionEntryRead s = .next t ∧ t.launches = s.launches ∧
      t.ctlNat .sched (0x1000 + 0x20 * q + 0xA) 2 = (head + 1) % cap ∧ t.ctlNat .sched (0x1000 + 0x20 * q + 0x10) 4 / 2 ^ 16 % 2 = 1) ∧
    (∀ b, s.badEntry e = false → s.entryHeld e = false → s.fetch (fieldOf e 0x28 2) ordinaryKeys (fieldOf e 0 8) 64 = some b →
      s.services = [] →
      let l := launchOf' b (fieldOf e 0x28 2) (BitVec.allOnes 16) q s.nextId
        { graph := fieldOf e 8 8, phase := fieldOf e 0x10 8, jobc := fieldOf e 0x18 8, priorph := fieldOf e 0x20 8 } none
      Passes (s.entryWalks e) b s.freeLaunchId l (.admission q s.freeLaunchId) →
      ∃ t, exec .submissionEntryRead s = .next t ∧ Assoc.find s.freeLaunchId t.launches = some (admitted s l) ∧
        (∀ k, k ≠ s.freeLaunchId → Assoc.find k t.launches = Assoc.find k s.launches) ∧
        t.ctlNat .sched (0x1000 + 0x20 * q + 0xA) 2 = (head + 1) % cap)) ∧
  (∀ s uk u r rest p, s.input = .one uk → Assoc.find uk s.units = some u → u.launch = uk / 65536 → u.pending = r :: rest →
    Assoc.find u.launch s.launches = some p → p.ring = [] → r.entered + 64 ≤ s.clock → s.services = [] →
    let l := s.childOf r.record u.launch u.ix p
    s.queueCount l.queue < 256 → Passes s r.record s.freeLaunchId l (.child uk s.freeLaunchId) →
    ∃ t, exec .pendingLaunchAdmit s = .next t ∧ Assoc.find s.freeLaunchId t.launches = some (admitted s l) ∧
      (∀ k, k ≠ s.freeLaunchId → Assoc.find k t.launches = Assoc.find k s.launches) ∧ Assoc.find uk t.units = some { u with pending := rest }) ∧
  (∀ s id l flat f, s.input = .one id → Assoc.find id s.launches = some l → l.held = true → l.deps = 0 → l.ctrs.priorph ≠ 0 →
    l.ctrs.priorph % 16 = 0 → s.reach l.job l.keymask l.ctrs.priorph false = .at flat f →
    let s1 := s.noteWalks l.job l.keymask false [l.ctrs.priorph]
    ∃ t, exec .heldLaunchRecheck s = .next t ∧
      (s.nat flat 4 ≠ 0 → t = { s1 with input := .none, launches := Assoc.put id { l with heldSince := s.clock } s.launches }) ∧
      (s.nat flat 4 = 0 → s.nat (flat + 4) 2 = 0 → t = { s1 with input := .none, launches := Assoc.put id { l with held := false } s.launches }) ∧
      (s.nat flat 4 = 0 → s.nat (flat + 4) 2 ≠ 0 → Assoc.find id t.launches = none))

/-- 02 R18, R31, R41: a group whose lanes have all exited and whose operations have completed leaves its core, and its unit counter falls;
a unit without groups and records retires, and its launch counter falls; at 0 the launch is over. -/
def Sys2Proof.Claims.GroupsAndUnitsEnd : Prop :=
  (∀ s key g l u flat f, s.input = .one key → Assoc.find key s.groups = some g → s.quiet key g = true → g.ending = true → g.cancelled = false →
    g.stop ≠ .lost → g.fails = [] → s.launchOf g = some l → Assoc.find (65536 * g.launchid.toNat + g.unitix.toNat) s.units = some u →
    Counts s l (l.block + 0x20 + 16 * g.unitix.toNat) flat f →
    ∃ t, exec .groupEnd s = .next t ∧ Assoc.find key t.groups = none ∧
      Assoc.find (65536 * g.launchid.toNat + g.unitix.toNat) t.units = some { u with live := u.live - 1 } ∧ FellBy1 s t flat 0 ∧
      ∀ k, k ≠ key → (Assoc.find k t.groups).isSome = (Assoc.find k s.groups).isSome) ∧
  (∀ s uk u l flat f, s.input = .one uk → Assoc.find uk s.units = some u → u.live = 0 → u.pending = [] → u.retired = false →
    Assoc.find u.launch s.launches = some l → u.ix ∉ l.ring → Counts s l l.block flat f →
    ∀ uf ux, s.reach l.job l.keymask (l.block + 0x20 + 16 * u.ix) true = .at uf ux → s.deviceOpen l.job (l.block + 0x20 + 16 * u.ix) = false →
    ∃ t, exec .unitRetire s = .next t ∧ (s.nat flat 4 = 1 → Assoc.find u.launch t.launches = none) ∧
      (s.nat flat 4 ≠ 1 → FellBy1 s t flat (s.nat (uf + 4) 2) ∧ Assoc.find u.launch t.launches = some { l with retired := l.retired + 1 } ∧
        Assoc.find uk t.units = some { u with retired := true }))

/-- 03 R59, R64 to R67: an issue cycle selects, among the ready groups (whose unit has started) of the first role in rotation that has one
and whose engine is free, the one with the lowest age stamp; with none the rotation moves on. -/
def Sys2Proof.Claims.IssueCycles : Prop :=
  ∀ s part, s.input = .one part → part < 1024 → Assoc.get false s.draining (part / 4) = false →
    let s2 := { s with input := .none }.settlePart part
    let may := fun (x : Nat × Group) (r : Nat) => x.2.partNo = part ∧ x.2.role = roleOf r ∧ x.2.startAt ≤ s2.clock ∧
      x.2.ready (s2.part part).cycle = true
    ∃ t, exec .issueCycle s = .next t ∧ (t.part part).cycle = (s2.part part).cycle + 1 ∧ t.mem = s.mem ∧
      (s2.select part = none → t.issue = s2.issue ∧ (t.part part).ptr = ((s2.part part).ptr + 1) % 3) ∧
      ∀ r key g, s2.select part = some (r, key, g) →
        (∃ i, t.issue = some i ∧ i.key = key) ∧ (t.part part).ptr = (r + 1) % 3 ∧ s2.engineBusy part (roleOf r) = false ∧
        may (key, g) r ∧ (∀ x ∈ s2.groups, may x r → g.age ≤ x.2.age) ∧
        ∀ n < 3, ((s2.part part).ptr + n) % 3 = r → ∀ m < n, let r' := ((s2.part part).ptr + m) % 3
          s2.engineBusy part (roleOf r') = true ∨ ∀ x ∈ s2.groups, ¬ may x r'

/-- 03 R70, R71, R73 to R75: a group idle for SWAPIDLE × 16 cycles in an eligible wait gives up its slot and its last-page registers are
cleared; the group that became ready first takes a free slot of its core; a register line becomes present; the forecast goes to AFR: for each
kind of work the lesser of its limit and the active partitions or cores plus half the units to come. (That an issue of a vector-role group counts
as vector work is the model's choice, log 118.) -/
def Sys2Proof.Claims.SwapAndCaches : Prop :=
  (∀ s key g, s.input = .one key → Assoc.find key s.groups = some g → g.resident = true → g.swapEligible = true →
    g.waitSince + s.swapIdle ≤ s.now g →
    ∃ t, exec .swapidleExpiry s = .next t ∧ OnlyGroup s t key { g with resident := false, lastPage := [] }) ∧
  (∀ s key g p, s.input = .one key → Assoc.find key s.groups = some g → g.wantsSlot = true →
    (∀ x ∈ s.groups, x.2.core = g.core → x.2.wantsSlot = true →
      g.readySince < x.2.readySince ∨ (g.readySince = x.2.readySince ∧ key ≤ x.1)) →
    s.resumePart g.core = some p →
    ∃ t g', exec .groupResume s = .next t ∧ Assoc.find key t.groups = some g' ∧ g'.resident = true ∧ g'.part = p ∧ p < 4 ∧
      s.residents (4 * g.core + p) < 24 ∧ registers g' = registers g ∧ g'.wait = g.wait ∧
      (∀ k, k ≠ key → Assoc.find k t.groups = Assoc.find k s.groups) ∧ t.mem = s.mem) ∧
  (∀ s key n g, s.input = .two key n → Assoc.find key s.groups = some g →
    ∃ t g', exec .registerLineLoad s = .next t ∧ OnlyGroup s t key g' ∧
      (∀ i < 256, g'.absent.getLsbD i = (g.absent.getLsbD i && decide (i ≠ n))) ∧ g'.uAbsent = (g.uAbsent && decide (n ≠ 256)) ∧
      g'.pAbsent = (g.pAbsent && decide (n ≠ 257)) ∧ (∀ z < 8, g'.zAbsent.getLsbD z = (g.zAbsent.getLsbD z && decide (n < 258 ∨ n ≠ 258 + z))) ∧
      g' = { g with absent := g'.absent, uAbsent := g'.uAbsent, pAbsent := g'.pAbsent, zAbsent := g'.zAbsent }) ∧
  (∀ s, ∃ t, exec .activityForecastWrite s = .next t ∧ t.groups = s.groups ∧ t.mem = s.mem ∧ t.launches = s.launches ∧ t.ranCopy = [] ∧
    (Assoc.sorted s.parts = true → ∀ n, t.part n = { s.part n with ranMatrix := false, ranVector := false }) ∧
    ∀ die < 2,
      let w := t.ctlNat .sched (0x08 + 8 * die) 8
      let toCome := fun (f : Launch → Nat) => (((s.launches.filter (fun x => !x.2.held && !x.2.cancelled)).map (fun x => x.2.toPlace * f x.2)).sum + 1) / 2
      let active := fun (p : Nat → Part → Bool) => (s.parts.filter (fun x => decide (x.1 / 512 = die) && p x.1 x.2)).length
      w % 2 ^ 10 = min 512 (active (fun n p => p.ranMatrix || (s.muHolder n).isSome) + toCome (fun l => min l.nmatrix 4)) ∧
      w / 2 ^ 10 % 2 ^ 10 = min 512 (active (fun _ p => p.ranVector || decide (p.cycle < p.vecBusy)) + toCome (fun l => min l.nvector 4)) ∧
      w / 2 ^ 20 % 2 ^ 12 = min 128 ((s.copyCores die).length + toCome (fun l => if 0 < l.ncopy then 1 else 0)) ∧
      w / 2 ^ 32 = (s.ctlNat .sched (0x0C + 8 * die) 4 + 1) % 2 ^ 32 ∧ (s.copyCores die).Nodup ∧
      ∀ c, c ∈ s.copyCores die ↔ dieOf c = die ∧
        ((∃ b, (c, b) ∈ s.ranCopy) ∨ (∃ x ∈ s.copies, x.2.core = c) ∨ ∃ x ∈ s.slots, x.1 / 4 = c ∧ x.2.loading ≠ none))

/-- 02 R19, R28, 03 R57 to R62: a placement opportunity places the next unit of the first-ranked launch on a core of the die where it fits,
each group at its entry point with the launch's parameter in k0 and k1; and an overlay load ends with the slot holding the code. -/
def Sys2Proof.Claims.Placement : Prop :=
  (∀ s die lid l rest, s.input = .one die → die < 2 → s.ranked = (lid, l) :: rest → Assoc.find lid s.launches = some l → l.cluen = false →
    (∃ c < 128, s.fits (128 * die + c) l = true) →
    (∀ c < 128, s.fits (128 * die + c) l = true →
      l.groups ≤ ((List.range 192).filter (fun f => (Assoc.find (groupKey (128 * die + c) f) s.groups).isNone)).length) →
    ∃ t u, exec .placementOpportunity s = .next t ∧ Assoc.find (65536 * lid + l.nextUnit) t.units = some u ∧
      u.launch = lid ∧ u.ix = l.nextUnit ∧ u.spadLen = l.spad ∧ u.live = l.groups ∧ s.fits u.core l = true ∧ u.core / 128 = die ∧
      Assoc.find lid t.launches = some { l with placed := l.nextUnit + 1, age := 0 } ∧
      (∀ a < l.spad, t.byte (paSpad u.core (u.spadBase + a)) = 0) ∧
      ∀ n < l.groups, ∃ key g, Assoc.find key t.groups = some g ∧ Assoc.find key s.groups = none ∧ g.core = u.core ∧ g.job = l.job ∧
        g.groupix = BitVec.ofNat 8 n ∧
        g.role = (if n < l.ncopy then .copy else if n < l.ncopy + l.nmatrix then .matrix else .vector) ∧
        g.keymask = l.keymask ∧ g.live0.mask = BitVec.allOnes 32 ∧ g.live0.kind = 1 ∧ g.live1.kind = 0 ∧
        g.kreg 0 = l.param.extractLsb' 0 32 ∧ g.kreg 1 = l.param.extractLsb' 32 32 ∧ ∀ k, 2 ≤ k → k < 32 → g.kreg k = 0) ∧
  (∀ s n sl lid l addr b, s.input = .one n → Assoc.find n s.slots = some sl → sl.loading = some (.placement lid) →
    s.awaiting (.overlay n) = false → s.serviceFailed (.overlay n) = none → Assoc.find lid s.launches = some l →
    let place := fun va => s.devicePlace sl.job l.keymask va false
    s.tableEntry place sl.code.toNat sl.ovl.toNat = .code addr b.length → s.readVia place addr b.length = .bytes b →
    ∃ t sl', exec .overlayPlacementLoadDone s = .next t ∧ Assoc.find n t.slots = some sl' ∧ sl'.loading = none ∧ sl'.size = b.length ∧
      (∀ i < b.length, Assoc.get 0 sl'.bytes i = b.getD i 0) ∧ sl'.job = sl.job ∧ sl'.code = sl.code ∧ sl'.ovl = sl.ovl ∧
      ∀ k g, Assoc.find k s.groups = some g → g.core = n / 4 → g.job = sl.job → g.code = sl.code → g.awaitOverlay = some sl.ovl →
        Assoc.find k t.groups = some { g with awaitOverlay := none, readySince := s.clock })

/-- 03 R72, 10 R236, 13 R294: a matrix unit enters idle after 1,024 cycles without an operation, begins to leave it in the order of requests with
at most 64 a die in 100 cycles and MUCAP out of idle, and is awake 32 cycles later; a hung operation leaves a failure of KIND 0x10. -/
def Sys2Proof.Claims.MatrixUnitModes : Prop :=
  ∀ s n, s.input = .one n →
    let p := s.part n
    let sets := fun (i : Instr) (p' : Part) => ∃ t, exec i s = .next t ∧ t.part n = p' ∧ (∀ m, m ≠ n → t.part m = s.part m) ∧
      t = { s with input := .none, parts := t.parts, wakes := t.wakes }
    (p.mu = .awake → s.muHolder n = none → p.muLast + 1024 ≤ s.clock → sets .muIdleEntry { p with mu := .idle }) ∧
    (∀ stamp, p.mu = .requested stamp → s.oldestRequest n stamp = true →
      ((Assoc.get [] s.wakes (n / 512)).filter (fun t => decide (s.clock < t + 100))).length < 64 → s.muOut (n / 512) < s.mucap (n / 512) →
      sets .muLeaveIdleStart { p with mu := .waking s.clock }) ∧
    (∀ c, p.mu = .waking c → c + 32 ≤ s.clock → sets .muLeaveIdleDone { p with mu := .awake, muLast := s.clock }) ∧
    (∀ c, p.mu = .resetting c → sets .muResetEnd { p with mu := .awake, muLast := s.clock }) ∧
    ∀ key g o, s.muHolder n = some (key, g, o) → Assoc.find key s.groups = some g → o.progress + 65536 ≤ p.cycle → o.replay = false →
      Assoc.find 1 g.fails = none → (∀ sl w, g.wait ≠ .replay sl w) →
      ∃ t g' f, exec .muHangReset s = .next t ∧ Assoc.find key t.groups = some g' ∧ g'.matrixOp = none ∧ g'.ctrMatrix = g.ctrMatrix - 1 ∧
        Assoc.find 1 g'.fails = some f ∧ f.trap.kind = 0x10 ∧ f.pcword = o.pcword ∧
        (o.dest.isSome = true → f.trap.entry = BitVec.ofNat 8 g.nextTile) ∧ (t.part n).mu = .resetting s.clock ∧ g'.stop = g.stop ∧
        (∀ z, (∀ tag, o.dest ≠ some (z, tag)) → z < 8 → ∀ i < 64, ∀ j < 64, g'.tile z i j = g.tile z i j) ∧
        ∀ k, k ≠ key → Assoc.find k t.groups = Assoc.find k s.groups

/-- 08 R174, R178: a COPYR that the engine has reached acquires a slot of its ring when one is free, its copy then coming after what the slot's
releases carry (09 R200), and stalls on the command otherwise. No group changes but such as are parked on the ring. -/
def Sys2Proof.Claims.CopyrAcquires : Prop :=
  ∀ s id o desc src len pa, s.input = .one id → Assoc.find id s.copies = some o → o.shape = .ring desc src len → s.copyReady id o = true →
    o.slot = none → o.failed = none → s.copyrFault o desc len = none → s.copyRing o desc = some pa →
    let r := s.stageRing pa
    ∃ t, exec .copyrSlotAcquire s = .next t ∧
      (0 < r.free → Assoc.find id t.copies = some { o with slot := some r.phead, stalled := none, view := s.slotView o pa r.phead }) ∧
      (0 < r.free → s.parked pa = false → t.groups = s.groups ∧
        t.stageRing pa = { r with phead := (r.phead + 1) % r.nslot, free := r.free - 1 }) ∧
      (r.free = 0 → t.groups = s.groups ∧ t.mem = s.mem ∧ ∃ n, Assoc.find id t.copies = some { o with stalled := some n })

/-- 08 R190, R191: a wait-for walk that finds no cycle changes no group; one that finds one cycle ends the wait of the highest-ranked group in
it with DLK and reports its records, changing no other group and no barrier or counter but its WAITERS. -/
def Obligations.WaitForWalks : Prop :=
  ∀ s, ∃ t, exec .waitforWalk s = .next t ∧ t.touched = [] ∧
    (∀ w, (∃ ks, (w, ks) ∈ t.walked) ↔ w ∈ t.recorded ∧ t.idleWait w = true) ∧
    (s.leastCycles = [] → t.groups = s.groups ∧ t.mem = s.mem ∧ t.out = s.out) ∧
    ∀ c w g kd pa st u what, s.leastCycles = [c] → s.breakAt c = some w → Assoc.find w.group s.groups = some g →
      g.wait = .object kd pa st u what → kd < 32 →
      w ∈ c ∧ (∀ v ∈ c, s.breakRank v ≤ s.breakRank w) ∧ t.out = s.out ++ [.deadlock (c.map Recorded.bytes)] ∧
      (∃ g', Assoc.find w.group t.groups = some g' ∧ g'.wait = .none ∧ g'.waitkind = 0 ∧ (∀ n, n ≠ kd → g'.kreg n = g.kreg n) ∧
        (g'.kreg kd).getLsbD (match what with | .take => 29 | .acquire => 29 | _ => 12) = true) ∧
      (∀ k, k ≠ w.group → Assoc.find k t.groups = Assoc.find k s.groups) ∧ ∀ x, x < pa + 8 ∨ pa + 16 ≤ x → t.byte x = s.byte x

namespace Sys2Proof.Claims

/-- A write of GROUPCMD names group `key` with an action. -/
def GroupCommanded (s : State) (action key : Nat) (g : Group) : Prop :=
  ∃ x, s.input = .word x ∧ bitsOf x 63 1 = 1 ∧ bitsOf x 16 4 = action ∧ bitsOf x 0 8 < 256 ∧ bitsOf x 8 8 < 192 ∧
    key = groupKey (bitsOf x 0 8) (bitsOf x 8 8) ∧ Assoc.find key s.groups = some g ∧ g.job = bitsOf x 32 16

/-- The command is accepted: GROUPSTAT.DONE is set, the named group is now `g'`, and no other group changes. -/
def Accepted (s t : State) (key : Nat) (g' : Group) : Prop :=
  t.ctlNat .trans 0x68 4 / 2 % 2 = 1 ∧ Assoc.find key t.groups = some g' ∧ ∀ k, k ≠ key → Assoc.find k t.groups = Assoc.find k s.groups

end Sys2Proof.Claims

/-- 10 R220, R226, R227: GROUPCMD. REISSUE continues a faulted group at its program counter; SKIP continues it after the instruction that
PCWORD names; STOP stops a running group before its next instruction with KIND 0; RUN continues it; a command to a group that is not in the
state it needs is REFUSED and changes no group. -/
def Sys2Proof.Claims.GroupCommands : Prop :=
  ∀ s key g,
    let ready := fun (h : Group) => { h with readyAt := s.now g, skip0 := 0, skip1 := 0, readySince := s.clock }
    let pcAfter : Pc := Pc.next ⟨g.frec.pcword.extractLsb' 0 8, g.frec.pcword.extractLsb' 8 14, false⟩
    let slot := g.frec.level.getLsbD 2
    (GroupCommanded s 0 key g → s.faulted g = true → ∃ t, exec .groupcmdReissue s = .next t ∧ t.mem = s.mem ∧
      Accepted s t key (ready { g with stop := .running, waitkind := 0 })) ∧
    (GroupCommanded s 1 key g → s.faulted g = true → ∃ t g', exec .groupcmdSkip s = .next t ∧ t.mem = s.mem ∧ Accepted s t key g' ∧
      g'.live slot = { g.live slot with pc := pcAfter } ∧ g'.live (!slot) = g.live (!slot) ∧
      g' = ready { g with stop := .running, waitkind := 0, live0 := g'.live0, live1 := g'.live1 }) ∧
    (GroupCommanded s 4 key g → g.stop = .running → g.ending = false → g.cancelled = false → g.geoOp = none → (∀ n st, g.wait ≠ .locks n st) →
      ∃ t g', exec .groupcmdStop s = .next t ∧ Accepted s t key g' ∧ g'.stop = .commanded ∧ g'.resident = false ∧ g'.wait = g.wait ∧
        registers g' = registers g ∧ g'.frec.faultword = 0 ∧ g'.frec.seq = g.frec.seq + 1 ∧
        g'.frec.pcword = ((g.live g.stopSlot).pc.off ++ (g.live g.stopSlot).pc.ovl).zeroExtend 32) ∧
    (GroupCommanded s 5 key g → g.stop = .commanded → g.cancelled = false → s.reportWaits g = false → g.wait = .none →
      ∃ t, exec .groupcmdRun s = .next t ∧ t.mem = s.mem ∧ Accepted s t key (ready { g with stop := .running, waitkind := 0, waitaddr := 0 })) ∧
    (∀ i action, (i, action) ∈ [(Instr.groupcmdReissue, 0), (.groupcmdSkip, 1), (.groupcmdLose, 2), (.groupcmdReplay, 3)] →
      GroupCommanded s action key g → g.stop ≠ .faulted →
      ∃ t, exec i s = .next t ∧ t.groups = s.groups ∧ t.mem = s.mem ∧ t.ctlNat .trans 0x68 4 / 4 % 2 = 1)

/-- The replay that a word `x` of GROUPCMD begins of a group's recorded instruction, in the live slot that the record names. -/
def Sys2Proof.Claims.replayOf (s : State) (x key : Nat) (g : Group) : Ctx :=
  let s0 := ({ s with input := .none } : State).ctlSet .trans 0x60 8 (bitsOf x 0 20 + 2 ^ 32 * bitsOf x 32 16)
  let g1 := s0.replaying g
  let slot := g.frec.level.getLsbD 2
  { s := (s0.purgeSlots g.core).setGroup key g1, key := key, g := g1, slot := slot, f := g1.live slot, now := s.now g1 }

/-- 02 R44 to R47, 10 R226, R235: LOSE ends a faulted group, which waits on nothing more, and marks its launch. REPLAY makes a faulted group
replay: where a slot of its core holds the recorded overlay and the matrix unit is free, the recorded matrix instruction starts again with MTMASK
and the tiles as they stand, and both fragments keep the program counters that the group stopped before; where none holds it, it is loaded into a
free slot; and the replay waits while no slot holds it and none is free. A replayed instruction that completes leaves the group in no wait. -/
def Sys2Proof.Claims.LoseAndReplay : Prop :=
  ∀ s key g,
    (GroupCommanded s 2 key g → s.faulted g = true → (s.launchOf g).isSome = true →
      ∃ t g', exec .groupcmdLose s = .next t ∧ t.ctlNat .trans 0x68 4 / 2 % 2 = 1 ∧ Assoc.find key t.groups = some g' ∧ g'.stop = .lost ∧
        g'.resident = false ∧ g'.wait = .none ∧ registers g' = registers g ∧
        (Assoc.find g.launchid.toNat t.launches).map (fun x => x.memberLost) = some true) ∧
    (∀ x, s.input = .word x → GroupCommanded s 3 key g → s.replayable g = true →
      let c := replayOf s x key g
      let w := BitVec.ofNat 22 g.frec.info.toNat
      let waits := fun (t : State) (g' : Group) =>
        Accepted s t key g' ∧ g'.wait = .replay c.slot w ∧ g'.stop = .running ∧ registers g' = registers g ∧ g'.mtmask = g.mtmask
      (∀ j sl i, c.s.slotOf g.core g.job g.code (pcOfLow w).ovl = some j → Assoc.find (slotKey g.core j) c.s.slots = some sl →
        sl.fetch (pcOfLow w) = .instr i → isMatrix i = true → g.matrixOp = none → c.s.muHolder g.partNo = none → g.ctrMatrix ≠ 0xFFFF →
        (s.part g.partNo).mu = .awake → c.poisonTraps 0 (c.readRegs (shapeOf c.g i)) = [] → c.matrixTraps i = [] →
        heldBy ((c.matrixChecks i).1 ++ (c.matrixChecks i).2) = none →
        ∃ t g' o, exec .groupcmdReplay s = .next t ∧ t.ctlNat .trans 0x68 4 / 2 % 2 = 1 ∧ Assoc.find key t.groups = some g' ∧
          g'.matrixOp = some o ∧ o.instr = i ∧ o.pcword = w ∧ o.replay = true ∧ o.po = g.po ∧ g'.ctrMatrix = g.ctrMatrix + 1 ∧
          g'.mtmask = g.mtmask ∧ g'.wait = .replay c.slot w ∧ g'.stop = .running ∧ registers g' = registers g ∧
          ∀ k, k ≠ key → (Assoc.find k t.groups).map registers = (Assoc.find k s.groups).map registers) ∧
      (∀ j, c.s.slotOf g.core g.job g.code (pcOfLow w).ovl = none → c.s.freeSlot g.core = some j →
        ∃ t g', exec .groupcmdReplay s = .next t ∧ waits t g' ∧ g'.awaitOverlay = some (pcOfLow w).ovl ∧
          Assoc.find (slotKey g.core j) t.slots =
            some { job := g.job, code := g.code, ovl := (pcOfLow w).ovl, addr := 0, size := 0, loading := some (.replay key) }) ∧
      (c.s.slotOf g.core g.job g.code (pcOfLow w).ovl = none → c.s.freeSlot g.core = none →
        ∃ t g', exec .groupcmdReplay s = .next t ∧ waits t g')) ∧
    (∀ o z tag, s.input = .one key → Assoc.find key s.groups = some g → g.matrixOp = some o → o.replay = true → o.dest = some (z, tag) →
      g.mtmask = 0xFFFF → s.engineReady key o.po (BitVec.allOnes 32) = true → g.cancelled = false →
      ∃ t g', exec .matrixOpComplete s = .next t ∧ Assoc.find key t.groups = some g' ∧ g'.matrixOp = none ∧ g'.mtmask = 0 ∧ g'.wait = .none ∧
        g'.live0 = g.live0 ∧ g'.live1 = g.live1)

/-- 10 R219, R231, R504, R225, 11 R261: a check that waits for a migrating page is made again once the page is released; SVCCMD ends an
open service request or marks it failed; TCOMPL returns RES0 and RES1 in k0 and k1, once the stores that its hart ordered before it have taken
effect (09 R209); a waiting ring record is written when the ring has room. -/
def Obligations.SupervisorAnswers : Prop :=
  (∀ s key g va w, s.input = .one key → Assoc.find key s.groups = some g → g.wait = .held va w →
    (∀ p, s.place g (some 0) va w ≠ .held p) →
    let waited := decide (g.stop = .commanded)
    ∃ t, exec .checkPhaseDone s = .next t ∧ OnlyGroup s t key { g with
      wait := .none, waitkind := if waited then g.waitkind else 0, waitaddr := if waited then g.waitaddr else 0, readySince := s.clock }) ∧
  (∀ s x k v, s.input = .word x → bitsOf x 63 1 = 1 →
    s.services.find? (fun v => decide (v.2.die = bitsOf x 17 1) && decide (v.2.token = bitsOf x 0 16) && !v.2.failed) = some (k, v) →
    (bitsOf x 16 1 = 0 → exec .svccmdRetry s = .next { s with input := .none, services := Assoc.del k s.services }) ∧
    (bitsOf x 16 1 = 1 → exec .svccmdFail s = .next { s with input := .none, services := Assoc.put k { v with failed := true } s.services })) ∧
  (∀ s hart ordered b key g seq st, s.input = .tcompl hart ordered b → b.length = 16 →
    (ordered = true → ∀ e ∈ s.hartq, e.hart = hart → e.memory = true → e.write = false) → fieldOf b 2 1 < 256 → fieldOf b 3 1 < 192 →
    key = groupKey (fieldOf b 2 1) (fieldOf b 3 1) → Assoc.find key s.groups = some g → g.job = fieldOf b 0 2 → g.cancelled = false →
    g.wait = .trapCall seq st → seq.toNat = fieldOf b 4 2 →
    ∃ t g', exec .tcompl s = .next t ∧ Assoc.find key t.groups = some g' ∧ g'.wait = .none ∧ (g.stop ≠ .commanded → g'.waitkind = 0) ∧
      g'.kreg 0 = BitVec.ofNat 32 (fieldOf b 8 4) ∧ g'.kreg 1 = BitVec.ofNat 32 (fieldOf b 12 4) ∧ (∀ n, 2 ≤ n → g'.kreg n = g.kreg n) ∧
      g'.live0 = g.live0 ∧ g'.live1 = g.live1 ∧ t.ctlNat .io 0x210 4 / 2 % 2 = 1 ∧ t.mem = s.mem ∧
      ∀ k, k ≠ key → Assoc.find k t.groups = Assoc.find k s.groups) ∧
  (∀ s hart b e, s.input = .tcompl hart true b → e ∈ s.hartq → e.hart = hart → e.memory = true → e.write = true →
    ∃ r, r.call = some b ∧ r.hart = hart ∧ r.ordered = true ∧ exec .tcompl s = .next { s with input := .none, hartq := s.hartq ++ [r] }) ∧
  (∀ s b rec, s.input = .one b → b < 3 ∨ 16 ≤ b ∧ b < 32 → rec.length = (s.ring b).recordSize → s.ringOpen b = true → Assoc.get [] s.rings b = [rec] →
    ∃ t, exec .deviceRingRecordWrite s = .next t ∧ Assoc.get [] t.rings b = [] ∧ t.groups = s.groups ∧
      (t.ring b).tail = ((s.ring b).tail + 1) % (s.ring b).cap ∧
      ∀ x, x < (s.ring b).base + (s.ring b).recordSize * (s.ring b).tail ∨ (s.ring b).base + (s.ring b).recordSize * ((s.ring b).tail + 1) ≤ x →
        t.byte x = s.byte x)

namespace Sys2Proof.Claims

/-- A new request `r` reaches this chip and its access may take effect at flat address `flat`: its job is live and open to the pod, its page has
no open ticket, nothing waits ahead of it and no held flagged store to its bytes does, and its checks pass. -/
structure Serves (s : State) (r : Request) (flat : Nat) (f : Option Found) : Prop where
  input : s.input = .request r
  here : r.dst = s.chipId
  new : (∀ p ∈ s.performed, p.1 = r.src → p.2.1 ≠ r.seq) ∧ (∀ w ∈ s.waiting, w.req.src ≠ r.src) ∧ (∀ w ∈ s.flagged, w.src = r.src →
    w.seq ≠ r.seq)
  after : ∀ w ∈ s.flagged, w.src = r.src → ∀ x ∈ w.access.bytes, x ∉ r.access.bytes
  plain : r.flagged = none
  job : s.podValid r.job = true ∧ s.jobLive r.job = true
  open_ : ∀ e ∈ s.tickets, e.2.chip = r.src → e.2.page ≠ r.access.first / 2 ^ 16
  place : (walk s (s.remoteAgent r) r.job r.access.first r.access.writes).place s r.access.first r.access.writes = .here flat f

/-- The packet of a reply to request `r`: it follows others for its chip into the escape channel of its plane (12 R288). -/
def packet (s : State) (r : Request) (b : Reply) : Output :=
  if Assoc.get 0 s.escape (256 * r.plane + r.src) = 0 then .reply r.src r.plane r.op r.acc b
  else .escaped (.reply r.src r.plane r.op r.acc b)

/-- The reply `b` to request `r` has left; before it at most the harts of rings have been signalled. -/
def Answers (s t : State) (r : Request) (b : Reply) : Prop :=
  ∃ sig : List Output, (∀ x ∈ sig, ∃ n, x = .signal n) ∧ t.out = s.out ++ sig ++ [packet s r b]

/-- The reply has left, and is kept for a retransmission. -/
def Replies (s t : State) (r : Request) (b : Reply) : Prop :=
  Answers s t r b ∧ t.performed = s.performed ++ [(r.src, r.seq, b)]

/-- The bytes that a remote store of `cells` at flat address `flat` stores here, and those of live objects that it leaves undefined
(02 R34; 08 R165, R173). -/
def storedBy (r : Request) (flat : Nat) (cells : List (Nat × Byte)) : List Host.Cell := cells.map (fun c => (flat + c.1 - r.access.first, c.2))
def leftOpen (s : State) (r : Request) (flat : Nat) (f : Option Found) (cells : List (Nat × Byte)) : List Nat :=
  ((match f with | some x => s.setAD x true | none => s).noteSpill r.job r.access.first).spoiled (storedBy r flat cells)

/-- The markers of set `n` of a source have arrived on all planes (12 R275). -/
def markersReached (s : State) (src n : Nat) : Prop := ∀ k < 8, (Assoc.get 0 s.mcnt (8 * src + k) + 2 ^ 16 - n) % 2 ^ 16 < 2 ^ 15

/-- Byte `x` lies outside the entry that a translation used. -/
def OffEntry (f : Option Found) (x : Nat) : Prop := ∀ e, f = some e → x < e.pte ∨ e.pte + 8 ≤ x

end Sys2Proof.Claims

/-- 12 R268, R271, R272, R278, R286: a remote load is answered with the bytes at its place; a remote store takes effect and is acknowledged; a request
for a job that is not open to the pod is answered with an error; one that meets a curable page fault is answered with a ticket; and a
retransmission of one performed is only answered again. A store leaves undefined only the fields of live objects that it reaches. -/
def Sys2Proof.Claims.RemoteRequests : Prop :=
  ∀ s r,
    (∀ flat f cells, Serves s r flat f → r.access = .read cells → (cells.map (fun c => c.2)).Nodup →
      ∃ t got p w, exec .remoteRequest s = .next t ∧ Replies s t r (.data got p w) ∧
        (∀ c ∈ cells, Assoc.get 0 got c.2 = t.byte (flat + c.1 - r.access.first)) ∧ ∀ x, OffEntry f x → t.byte x = s.byte x) ∧
    (∀ flat f cells, Serves s r flat f → r.access = .write cells → s.shackled flat = false →
      ∃ t, exec .remoteRequest s = .next t ∧ Replies s t r .ack ∧
        ∀ x, OffEntry f x → x ∉ leftOpen s r flat f cells → t.byte x = overwritten (storedBy r flat cells) x (s.byte x)) ∧
    (s.input = .request r → r.dst = s.chipId → r.flagged = none → s.waiting = [] → s.flagged = [] → s.performed = [] →
      s.podValid r.job = false → ∃ t, exec .remoteRequest s = .next t ∧ Replies s t r (.error 0x09 2) ∧ t.groups = s.groups) ∧
    (∀ tr, s.input = .request r → r.dst = s.chipId → r.flagged = none → s.waiting = [] → s.flagged = [] → s.performed = [] →
      s.podValid r.job = true → s.jobLive r.job = true → s.tickets = [] →
      (walk s (s.remoteAgent r) r.job r.access.first r.access.writes).place s r.access.first r.access.writes = .fault tr →
      tr.curable = true →
      ∃ t hint n, exec .remoteRequest s = .next t ∧ Answers s t r (.ticket s.chipId n hint (r.access.first / 2 ^ 16)) ∧ t.groups = s.groups ∧
        t.performed = s.performed ∧ n < 2 ^ 16 ∧
        Assoc.find n t.tickets = some { chip := r.src, job := r.job, page := r.access.first / 2 ^ 16, trap := tr, migrating := false }) ∧
    ∀ b, s.input = .request r → r.dst = s.chipId → s.performed = [(r.src, r.seq, b)] →
      ∃ t, exec .remoteRequest s = .next t ∧ t.out = s.out ++ [packet s r b] ∧ t = { s with input := .none, out := t.out, escape := t.escape }

/-- 12 R270 to R272, R281: data for a load enter its operation, an acknowledgement lowers the remote counter of the store's group, and the request
leaves the retransmission buffer; a ticket puts the access into its core's ticket table; a held ticket enters when an entry is free. -/
def Sys2Proof.Claims.RemoteReplies : Prop :=
  (∀ s op acc r o got p w, s.input = .reply op acc (.data got p w) → s.flightOf op acc = some r → r.access.isStore = false →
    Assoc.find op s.ops = some o → s.rtkt = [] → (Assoc.del acc o.sent ≠ [] ∨ o.accs ≠ []) →
    ∃ t o', exec .remoteReply s = .next t ∧ r ∉ t.flight ∧ (∀ x ∈ s.flight, x ≠ r → x ∈ t.flight) ∧ t.mem = s.mem ∧
      (∀ k, ∃ x, Assoc.find k t.groups = (Assoc.find k s.groups).map (fun g => { g with order := x })) ∧
      Assoc.find op t.ops = some o' ∧ o'.sent = Assoc.del acc o.sent ∧ o'.poisoned = (o.poisoned || p) ∧
      (∀ n x, got = [(n, x)] → Assoc.get 0 o'.got n = x) ∧ o' = { o with got := o'.got, poisoned := o'.poisoned, sent := o'.sent }) ∧
  (∀ s op acc r o g, s.input = .reply op acc .ack → s.flightOf op acc = some r → r.access.isStore = true → Assoc.find op s.ops = some o →
    o.dest = .none → o.errs = [] → s.rtkt = [] → Assoc.find o.group s.groups = some g → g.wait = .none →
    ∃ t, exec .remoteStoreAck s = .next t ∧ r ∉ t.flight ∧ (∀ x ∈ s.flight, x ≠ r → x ∈ t.flight) ∧ t.mem = s.mem ∧
      (∃ g', Assoc.find o.group t.groups = some g' ∧ g' = { g with ctrRemote := g.ctrRemote - 1, acks := g'.acks, order := g'.order } ∧
        ∀ j, Assoc.get 0 g'.acks j = Assoc.get 0 g.acks j - (if j = planeIndex r.access.first then 1 else 0)) ∧
      ∀ k, k ≠ o.group → Assoc.find k t.groups = Assoc.find k s.groups) ∧
  (∀ s op acc owner number hint page r o a e, s.input = .ticket op acc owner number hint page → s.flightOf op acc = some r →
    Assoc.find op s.copies = none → Assoc.find op s.ops = some o → Assoc.find acc o.sent = some a → s.entryOf op acc = none →
    s.known = [] → s.early = [] → (∀ h ∈ s.heldTickets, h.core ≠ r.core) → s.freeRtkt r.core = some e →
    (Assoc.find o.group s.groups).map (fun g => g.cancelled) = some false →
    ∃ t x, exec .faultTicketResponse s = .next t ∧ r ∉ t.flight ∧ Assoc.find e t.rtkt = some x ∧ x.state = 1 ∧ x.op = op ∧ x.acc = acc ∧
      x.access = a ∧ x.owner = owner ∧ x.number = number ∧ (∀ j, j ≠ e → Assoc.find j t.rtkt = Assoc.find j s.rtkt) ∧
      (Assoc.find o.group t.groups).map (fun g => g.tickets) = (Assoc.find o.group s.groups).map (fun g => g.tickets + 1)) ∧
  (∀ s core h rest e o a k, s.input = .one core → s.heldTickets = h :: rest → h.core = core → h ∉ rest → s.freeRtkt core = some e →
    Assoc.find h.op s.ops = some o → Assoc.find h.acc o.sent = some a → s.knownSerial h.serial = some k → k.closed = false →
    (∀ g, Assoc.find o.group s.groups = some g → g.cancelled = false) →
    ∃ t x, exec .ticketTableEntry s = .next t ∧ t.heldTickets = rest ∧ Assoc.find e t.rtkt = some x ∧ x.state = 1 ∧ x.op = h.op ∧
      x.acc = h.acc ∧ x.access = a)

/-- 12 R275 to R277, R282: a replay notice counts once for each plane, the eighth settles the ticket, and copies that come before the
first refusal are kept; TKTDONE closes a ticket with a notice on
each plane; markers are counted for each plane, and complete sets release flagged stores and reports, which a refused access that arrived ahead of
them holds back until it has been performed (12 R278). A ticket closed with status 0 replays the head of each core's chain and leaves the others
waiting; one closed with status 1 frees every entry, a store failing for its group and a load stopping it. -/
def Sys2Proof.Claims.TicketsAndMarkers : Prop :=
  (∀ s owner number plane st kind cause k, s.input = .notice owner number plane st kind cause → s.known = [k] → k.owner = owner →
    k.number = number → plane ∉ k.notices → k.notices.length < 8 → s.rtkt = [] → s.heldTickets = [] → s.copies = [] →
    let k1 := { k with notices := k.notices ++ [plane], status := st, kind := kind, cause := cause }
    exec .replayNotice s = .next { s with input := .none, known := if k.notices.length = 7 then [] else [k1] }) ∧
  (∀ s owner number plane st kind cause, s.input = .notice owner number plane st kind cause → s.known = [] → s.early = [] →
    exec .replayNotice s = .next { s with
      input := .none, early := [{ owner := owner, number := number, planes := [plane], status := st, kind := kind, cause := cause }] }) ∧
  (∀ s owner number plane kind cause k st, s.input = .notice owner number plane st kind cause → s.known = [k] → k.owner = owner →
    k.number = number → plane ∉ k.notices → k.notices.length = 7 → Assoc.sorted s.rtkt = true → s.copies = [] →
    (st = 0 → ∃ t, exec .replayNotice s = .next t ∧ t.mem = s.mem ∧ t.groups = s.groups ∧ t.ops = s.ops ∧
      (∀ core e x o ch, chainHead (s.chain core k.serial) = some (e, x) → x.state = 1 →
        (∀ y ∈ s.rtkt, y.1 / 32 = core → k.serial < y.2.serial → y.2.access.overlaps x.access = false) → Assoc.find x.op s.ops = some o →
        (Assoc.find o.group s.groups).isSome = true → x.access.chip = some ch → Assoc.find (planeIndex x.access.kind.first) s.planeNow = none →
        Assoc.find e t.rtkt = some { x with state := 2 } ∧ ∃ r ∈ t.flight, r.op = x.op ∧ r.acc = x.acc ∧ r.dst = ch ∧ r.access = x.access.kind) ∧
      ∀ e x, Assoc.find e s.rtkt = some x → x.serial ≠ k.serial ∨ chainHead (s.chain (e / 32) k.serial) ≠ some (e, x) →
        Assoc.find e t.rtkt = some x) ∧
    (st = 1 → ∃ t, exec .replayNotice s = .next t ∧ t.mem = s.mem ∧
      (∀ e x, Assoc.find e s.rtkt = some x → Assoc.find e t.rtkt = if x.serial = k.serial then none else some x) ∧
      ∀ e x o g, s.rtkt = [(e, x)] → x.serial = k.serial → Assoc.find x.op s.ops = some o → o.errs = [] → Assoc.find o.group s.groups = some g →
        (x.access.kind.isStore = true → o.dest = .none → Assoc.find 2 g.fails = none → g.wait = .none →
          ∃ g', Assoc.find o.group t.groups = some g' ∧ g'.ctrRemote = g.ctrRemote - 1 ∧ g'.tickets = g.tickets - 1 ∧ g'.stop = g.stop ∧
            Assoc.find 2 g'.fails = some
              { trap := { kind := kind, cause := cause, write := true, addr := podVa (x.access.chip.getD 0) x.access.kind.first }, pcword := o.pcword }) ∧
        (x.access.kind.isStore = false → (∀ cells, x.access.kind = .read cells → cells ≠ []) → o.accs = [] → (∃ a, o.sent = [(x.acc, a)]) →
          ∃ g', Assoc.find o.group t.groups = some g' ∧ g'.stop = .faulted ∧ g'.tickets = g.tickets - 1 ∧
            g'.frec.faultword = BitVec.ofNat 32 (kind.toNat + 2 ^ 8 * cause.toNat + 2 ^ 12 * (if x.access.writes then 1 else 0)) ∧
            g'.frec.pcword = o.pcword.zeroExtend 32))) ∧
  (∀ s x n o, s.input = .word x → bitsOf x 63 1 = 1 → n = bitsOf x 0 16 → Assoc.find n s.tickets = some o → s.waiting = [] → s.escape = [] →
    exec .tktdone s = .next { s with
      input := .none, tickets := Assoc.del n s.tickets
      refused := if bitsOf x 16 1 = 0 then s.refused else s.refused.filter (fun y => !(decide (y.src = o.chip) && decide (y.number = n)))
      out := s.out ++ (List.range 8).map (fun k => .replayNotice o.chip k s.chipId n (bitsOf x 16 1) o.trap.kind o.trap.cause) }) ∧
  (∀ s src plane n rep, s.input = .marker src plane n rep → plane < 8 →
    ∃ t, exec .markerReceived s = .next t ∧
      (∀ j, Assoc.get 0 t.mcnt j = if j = 8 * src + plane then (Assoc.get 0 s.mcnt j + 1) % 2 ^ 16 else Assoc.get 0 s.mcnt j) ∧
      (∀ x, x ∈ t.reports ↔ x ∈ s.reports ∨ rep = true ∧ x = (src, n)) ∧
      t = { s with input := .none, mcnt := t.mcnt, reports := t.reports }) ∧
  (∀ s src n, s.input = .two src n → (src, n) ∈ s.reports → markersReached s src n →
    (∀ w ∈ s.waiting, w.req.src ≠ src) → (∀ r ∈ s.flagged, r.src ≠ src) →
    let behind := fun x : Refused => (x.seen + 2 ^ 16 - n) % 2 ^ 16 < 2 ^ 15
    ((∀ x ∈ s.refused, x.src = src → behind x) →
      ∃ t, exec .markerReport s = .next t ∧ (src, n) ∉ t.reports ∧ (∀ x ∈ s.reports, x ≠ (src, n) → x ∈ t.reports) ∧
        t = { s with input := .none, reports := t.reports, out := s.out ++ [.markerReport src n] }) ∧
    ((∃ x ∈ s.refused, x.src = src ∧ ¬ behind x) → exec .markerReport s = .next { s with input := .none })) ∧
  (∀ s src n r cells flat f, s.input = .two src n → s.flagged = [r] → r.src = src → r.flagged = some n → markersReached s src n →
    (∀ x ∈ s.refused, x.src = src → (x.seen + 2 ^ 16 - n) % 2 ^ 16 < 2 ^ 15) → r.access = .write cells →
      s.waiting = [] → s.podValid r.job = true → s.jobLive r.job = true → s.tickets = [] →
    (walk s (s.remoteAgent r) r.job r.access.first true).place s r.access.first true = .here flat f → s.shackled flat = false →
    ∃ t, exec .flaggedStorePerform s = .next t ∧ t.flagged = [] ∧ Replies s t r .ack ∧
      ∀ x, OffEntry f x → x ∉ leftOpen s r flat f cells → t.byte x = overwritten (storedBy r flat cells) x (s.byte x)) ∧
  (∀ s chip n key g st sets, s.input = .two chip n → Assoc.find key s.groups = some g → g.wait = .fencer sets st → (chip, n) ∈ sets →
    ∃ t g', exec .markerReportArrival s = .next t ∧ Assoc.find key t.groups = some g' ∧
      ((∃ x ∈ sets, x ≠ (chip, n)) → ∃ rest, g'.wait = .fencer rest st ∧ ∀ x, x ∈ rest ↔ x ∈ sets ∧ x ≠ (chip, n)) ∧
      ((∀ x ∈ sets, x = (chip, n)) → g.ctrRemote = 0 → g.tickets = 0 → s.groupTickets key = false → g'.wait = .none ∧ g'.targets = []))

/-- 12 R285 to R288: a dead plane leaves PLANESTAT and its indices move to the next live plane; PLANEMAP takes a map that names live planes only,
an index with requests out keeping its plane until they are answered; PODMASK is set; the packets of a port queue
whose head has waited ESCTIMER link cycles for its chip enter the escape channel, and leave it one by one. -/
def Sys2Proof.Claims.PlanesAndMembers : Prop :=
  (∀ s k live, s.input = .one k → k < 8 → s.alive k = true → live < 8 → live ≠ k → s.alive live = true →
    (∀ j < 8, j ≠ k → j ≠ live → (live + 8 - k) % 8 < (j + 8 - k) % 8 ∨ s.alive j = false) →
    ∃ t, exec .planeDead s = .next t ∧ t.alive k = false ∧ (∀ j < 8, j ≠ k → t.alive j = s.alive j) ∧ t.groups = s.groups ∧
      ∀ i < 8, bitsOf (t.ctlNat .fabric 4 4) (3 * i) 3 =
        if bitsOf (s.ctlNat .fabric 4 4) (3 * i) 3 = k then live else bitsOf (s.ctlNat .fabric 4 4) (3 * i) 3) ∧
  (∀ s x, s.input = .word x → ∃ t, exec .planemapWrite s = .next t ∧ t.groups = s.groups ∧ t.mem = s.mem ∧
    ((∀ i < 8, s.alive (bitsOf x (3 * i) 3) = true) → t.ctlNat .fabric 4 4 = x % 2 ^ 24) ∧
    ((∃ i < 8, s.alive (bitsOf x (3 * i) 3) = false) → t = { s with input := .none })) ∧
  (∀ s i old, s.input = .one i → Assoc.find i s.planeNow = some old →
    ((∀ r ∈ s.flight, planeIndex r.access.first = i → r.plane ≠ old) → s.rtkt = [] →
      exec .planemapChangeApply s = .next { s with input := .none, planeNow := Assoc.del i s.planeNow }) ∧
    ((∃ r ∈ s.flight, planeIndex r.access.first = i ∧ r.plane = old) → exec .planemapChangeApply s = .next { s with input := .none })) ∧
  (∀ s b, s.input = .bytes b → b.length = 32 → s.flight = [] → s.known = [] →
    ∃ t, exec .podmaskWrite s = .next t ∧ t.podmask = leNat b ∧ t.groups = s.groups ∧ t.mem = s.mem) ∧
  (∀ s plane waited chip behind, s.input = .portQueue plane waited (chip :: behind) → plane < 8 → (∀ c ∈ chip :: behind, c < 256) →
    (s.ctlNat .fabric 0xC 4 ≤ waited →
      ∃ t, exec .esctimerExpiry s = .next t ∧ t = { s with input := .none, escape := t.escape } ∧
        ∀ j, Assoc.get 0 t.escape j = Assoc.get 0 s.escape j + if j = 256 * plane + chip then 1 + behind.count chip else 0) ∧
    (waited < s.ctlNat .fabric 0xC 4 → exec .esctimerExpiry s = .next { s with input := .none })) ∧
  (∀ s plane chip, s.input = .escapeLeft plane chip → plane < 8 → chip < 256 →
    ∃ t, exec .esctimerExpiry s = .next t ∧ t = { s with input := .none, escape := t.escape } ∧
      ∀ j, Assoc.get 0 t.escape j = Assoc.get 0 s.escape j - if j = 256 * plane + chip then 1 else 0)

namespace Sys2Proof.Claims

/-- An arrival reaches a barrier at `pa` that no group is parked on and no member is lost at: the barrier has counted it toward its current
phase, and completed that phase when it is full; `left` arrivals still wait, and no register of any group has changed. -/
def ArrivesOn (s t : State) (pa : Nat) (left : List Arrival) : Prop :=
  let b := (s.barrier pa).count (s.barrier pa).pseq
  t.barrier pa = (if b.full then (b.complete 131072).1 else b) ∧ t.arrivals = left ∧ t.groups = s.groups ∧
  t.ctlNat .io 0x18 4 = s.ctlNat .io 0x18 4

/-- The object of an arrival can be reached and written now, apart from the page table entry that leads to it. -/
def CanArrive (s : State) (a : Arrival) (pa : Nat) : Prop :=
  (∃ f, s.arrivalPlace a.job a.obj = .at pa f ∧ (f.pte + 8 ≤ pa ∨ pa + 16 ≤ f.pte)) ∧ s.parked pa = false ∧ s.memberLostAt pa = false ∧
  s.lineWaits pa = false

/-- The arrival that vector `v` stands for now, and that no earlier arrival on its object waits, in the queue, at a port or with a hart. -/
def vectored (s : State) (v : Nat) : Arrival := { vector := v, job := s.vectorJob v, obj := s.vectorObj v, seq := s.nextId }
def First (s : State) (a : Arrival) : Prop :=
  (∀ x ∈ s.arrivals, ¬ (x.job = a.job ∧ x.obj = a.obj)) ∧
  (∀ e ∈ s.endpoints, ∀ x, e.kind = .arrival x → ¬ (x.job = a.job ∧ x.obj = a.obj)) ∧
  ∀ r ∈ s.hartq, ∀ x, r.arrival = some x → ¬ (x.job = a.job ∧ x.obj = a.obj)

/-- The parts `todo` of an access of `n` bytes at `a`: each lies in one sector, and together they cover it. -/
def Parts (a n : Nat) (todo : List (Nat × Nat)) : Prop :=
  (∀ p ∈ todo, 0 < p.2 ∧ p.1 + p.2 ≤ n ∧ (a + p.1) / 64 = (a + p.1 + p.2 - 1) / 64) ∧
  ∀ i < n, ∃ p ∈ todo, p.1 ≤ i ∧ i < p.1 + p.2

/-- The part `p` of a checked request lies at flat address `flat`: physical for a peer's access and for a translated address, and otherwise
where its PASID's walk leads. -/
def PartAt (s : State) (r : EndpointReq) (p : Nat × Nat) (flat : Nat) (f : Option Found) : Prop :=
  ((r.kind = .inbound ∨ r.kind = .translated) ∧ flat = r.va + p.1 ∧ s.homeWaits flat = false ∧ f = none) ∨
  (r.kind = .memory ∧ ∃ e, f = some e ∧ s.endpointPlace r.port (r.pasid.getD 0) (r.va + p.1) (!r.readOnly) = .at flat e)

/-- The write is discarded and counted in ARRDROP, saturating. -/
def Discards (s : State) (i : Instr) : Prop :=
  ∃ t, exec i s = .next t ∧ t.ctlNat .io 0x18 4 = min (2 ^ 32 - 1) (s.ctlNat .io 0x18 4 + 1) ∧ t.groups = s.groups ∧ t.mem = s.mem

end Sys2Proof.Claims

/-- 11 R245 to R248, R253: an MSI, a notify store, a mailbox write or a queued arrival on a bound vector counts on its barrier; writes
that no bound vector accepts are counted in ARRDROP and change nothing else; ARRCMD binds and unbinds a vector, or sets ERR; a write to the DOE
mailbox is an SPDM request. -/
def Sys2Proof.Claims.Arrivals : Prop :=
  (∀ s port rid bus size rlx pa, s.input = .arrive port rid bus size rlx → s.portOpen port = true → s.acsRefused port rid false = false →
    s.ctlNat .io 0 8 ≤ bus → bus < s.ctlNat .io 0 8 + 2 ^ 20 →
    let off := bus - s.ctlNat .io 0 8
    let v := off / 16
    let accepts := size = 4 ∧ off % 16 = 0 ∧ s.boundWith v 1 = true ∧ (rid = s.vectorRid v ∨ bitsOf (s.vectorFlags v) 3 1 = 1)
    (¬ accepts → Discards s .msiArrival) ∧
    (accepts → s.endpoints = [] → First s (vectored s v) → CanArrive s (vectored s v) pa →
      ∃ t, exec .msiArrival s = .next t ∧ ArrivesOn s t pa s.arrivals)) ∧
  (∀ s hart addr ordered pa, s.input = .notify hart addr ordered → s.populated addr = false → s.ctlNat .io 8 8 ≤ addr →
    addr < s.ctlNat .io 8 8 + 2 ^ 28 →
    let v := (addr - s.ctlNat .io 8 8) / 4096
    (hart = none → Discards s .notifyArrival) ∧
    ∀ h < 32, hart = some h →
      (s.boundWith v 2 = false → Discards s .notifyArrival) ∧
      (s.boundWith v 2 = true → s.hartq = [] → First s (vectored s v) → CanArrive s (vectored s v) pa →
        ∃ t, exec .notifyArrival s = .next t ∧ ArrivesOn s t pa s.arrivals)) ∧
  (∀ s v a rest pa, s.input = .one v → s.arrivals = a :: rest → a.vector = v → CanArrive s a pa →
    ∃ t, exec .arrivalQueueApply s = .next t ∧ ArrivesOn s t pa rest) ∧
  (∀ s port off size data rlx pa, s.input = .mailbox port off size data rlx → port < 8 → s.ntbOn port = true → s.portOpen port = true →
    let v := s.ctlNat .io (0x30C + 0x20 * port) 2 + off / 4
    let accepts := size = 4 ∧ off % 4 = 0 ∧ off < 0x40 ∧ s.boundWith v 1 = true
    (off < 0x1000 → ¬ accepts → Discards s .ntbMailboxWrite) ∧
    (accepts → s.endpoints = [] → First s (vectored s v) → CanArrive s (vectored s v) pa →
      ∃ t, exec .ntbMailboxWrite s = .next t ∧ ArrivesOn s t pa s.arrivals ∧
        Assoc.get 0 t.mailbox (16 * port + off / 4) = BitVec.ofNat 32 data) ∧
    (0x1000 ≤ off → off < 0x10000 →
      exec .ntbMailboxWrite s = .next { s with input := .none, agenda := s.agenda ++ [(.spdmMeasurementRequest, .one port)] })) ∧
  (∀ s x, (s.input = .word x ∧ s.arrcmd = none) ∨ (s.input = .none ∧ s.arrcmd = some x) → bitsOf x 63 1 = 1 →
    let v := bitsOf x 0 16
    (∀ pa f, bitsOf x 16 1 = 0 → v < 65535 → s.bound v = false → s.vectorObj v % 16 = 0 →
      s.arrivalPlace (s.vectorJob v) (s.vectorObj v) = .at pa f → bitsOf (s.signal pa) 17 1 = 0 →
      pa + 12 ≤ s.vectorAt v + 0xC ∨ s.vectorAt v + 0xE ≤ pa + 8 → s.lineWaits pa = false → s.lineWaits (s.vectorAt v) = false →
      ∃ t, exec .arrcmdBind s = .next t ∧ t.signal pa = v + 2 ^ 17 + 2 ^ 16 * bitsOf (s.vectorFlags v) 2 1 ∧ t.bound v = true ∧
        t.groups = s.groups ∧ t.arrcmd = none ∧ t.ctlNat .io 0x48 4 % 4 = 2) ∧
    (bitsOf x 16 1 = 0 → v = 65535 ∨ s.bound v = true ∨ s.vectorObj v % 16 ≠ 0 →
      ∃ t, exec .arrcmdBind s = .next t ∧ t.mem = s.mem ∧ t.groups = s.groups ∧ t.arrcmd = none ∧ t.ctlNat .io 0x48 4 / 4 % 2 = 1) ∧
    (∀ pa f, bitsOf x 16 1 = 1 → s.bound v = true → s.arrivalPlace (s.vectorJob v) (s.vectorObj v) = .at pa f →
      s.lineWaits pa = false → s.lineWaits (s.vectorAt v) = false →
      ∃ t, exec .arrcmdUnbind s = .next t ∧ t.signal pa = 0 ∧ t.groups = s.groups ∧ t.arrcmd = none ∧ t.ctlNat .io 0x48 4 % 4 = 2 ∧
        (pa + 12 ≤ s.vectorAt v + 0xC ∨ s.vectorAt v + 0xE ≤ pa + 8 → f.pte + 8 ≤ s.vectorAt v + 0xC ∨ s.vectorAt v + 0xE ≤ f.pte →
          t.bound v = false)))

/-- 11 R242, R244, R252, R257: enabling a doorbell queue sets TAIL and clears its bitmap; a failed tail write sets its ERR; an NTB peer reads and
writes within its window where the frame keys allow, a write that leads to the notify window is counted in ARRDROP; it reads the message
registers and the DOE mailbox (log 68), and any other read of it is an Unsupported Request. -/
def Sys2Proof.Claims.QueuesAndPeers : Prop :=
  (∀ s q, s.input = .one q → q < 4096 → s.ctlNat .io (0x10000 + 0x40 * q + 0x28) 4 % 2 = 0 → s.bmapServed q = true →
    ∃ t, exec .dqEnable s = .next t ∧ t.ctlNat .io (0x10000 + 0x40 * q + 0x24) 4 = s.ctlNat .io (0x10000 + 0x40 * q + 0x20) 4 ∧
      t.ctlNat .io (0x10000 + 0x40 * q + 0x28) 4 % 2 = 1 ∧ t.groups = s.groups ∧
      ∀ i < s.ctlNat .io (0x10000 + 0x40 * q + 0x18) 4, t.bmapBit q i = false) ∧
  (∀ s q, s.input = .one q → q < 4096 →
    ∃ t, exec .tailWriteFailed s = .next t ∧ t.ctlNat .io (0x10000 + 0x40 * q + 0x28) 4 / 2 % 2 = 1 ∧ t.groups = s.groups) ∧
  (∀ s port off write len data rlx, s.input = .inbound port off write len data rlx → s.ntbOn port = true → s.portOpen port = true →
    let pa := s.ctlNat .io (0x300 + 0x20 * port) 8 + off
    let n := if write then data.length else len
    let barred := 2 ^ s.ctlNat .io (0x30A + 0x20 * port) 1 < off + n ∨
      ∃ a ∈ framesOf pa n, keyRefusal (.endpoint (s.ntbKeys port)) write (s.frameKey a) ≠ none
    let hole := ∃ a ∈ framesOf pa n, s.populated a = false
    ∃ t, exec .ntbInboundAccess s = .next t ∧ t.groups = s.groups ∧
      (barred → t.mem = s.mem ∧ t.out = if write then s.out else s.out ++ [.unsupported port 0]) ∧
      (¬ barred → write = true → s.notified pa n = true → t.mem = s.mem ∧ t.out = s.out ∧
        t.ctlNat .io 0x18 4 = min (2 ^ 32 - 1) (s.ctlNat .io 0x18 4 + 1)) ∧
      (¬ barred → (write = true → s.notified pa n = false) → hole → ∃ sig : List Output, (∀ x ∈ sig, ∃ m, x = .signal m) ∧
        t.out = s.out ++ sig ++ if write then [] else [.unsupported port 0]) ∧
      (¬ barred → ¬ hole → 0 < n → ∃ todo, Parts pa n todo ∧ t = { s with
        input := .none
        endpoints := s.endpoints ++ [{
          port := port, rid := 0, pasid := none, va := pa, readOnly := !write, kind := .inbound, len := len, data := data, relaxed := rlx
          checked := true, todo := todo }] })) ∧
  (∀ s port off size, s.input = .mailboxRead port off size → s.ntbOn port = true → s.portOpen port = true →
    (size = 4 → off % 4 = 0 → off < 0x40 → exec .ntbInboundAccess s = .next { s with
      input := .none, out := s.out ++ [.completion port 0 (leBytes 4 (Assoc.get (0 : Word) s.mailbox (16 * port + off / 4)).toNat)] }) ∧
    (0x1000 ≤ off → off + size ≤ 0x10000 → ∃ bs : List Byte, bs.length = size ∧
      exec .ntbInboundAccess s = .next { s with input := .none, fresh := s.fresh + 1, out := s.out ++ [.completion port 0 bs] }) ∧
    (size ≠ 4 ∨ off % 4 ≠ 0 ∨ 0x40 ≤ off → off < 0x1000 ∨ 0x10000 < off + size →
      ∃ t, exec .ntbInboundAccess s = .next t ∧ t.out = s.out ++ [.unsupported port 0] ∧ t.mem = s.mem ∧ t.groups = s.groups))

namespace Sys2Proof.Claims

/-- The port takes the request, and its PASID's entry is in use, its requester's, of a live job, and permits writes where needed. -/
def Permitted (s : State) (r : EndpointReq) : Prop :=
  s.portOpen r.port = true ∧ s.acsRefused r.port r.rid false = false ∧ s.pasidServes r.port (r.pasid.getD 0) r.rid = true ∧
  (r.readOnly = true ∨ s.pasidFlag r.port (r.pasid.getD 0) 1 = true)

end Sys2Proof.Claims

/-- 11 R238, R249 to R251: translation requests are answered with the leaf that the walk finds; a memory request is taken in parts, each in
one sector, and each part reads or writes what its place holds, but that a write into a live counter, barrier or ring leaves its fields undefined
(02 R35, 08 R165, R173); a request for more than the root complex honours, or that the port's ACS control bars (log 151), is refused;
a page request leaves a record, a request of an entry that does not permit it leaves none; PRGRESP answers; ports are contained and released. -/
def Sys2Proof.Claims.EndpointRequests : Prop :=
  (∀ s r pa f, s.input = .endpoint r → Permitted s r → r.kind = .translation → r.beyond = false → s.tagsFull r.port = false →
    s.endpointPlace r.port (r.pasid.getD 0) r.va (!r.readOnly) = .at pa f →
    ∃ t, exec .atsTranslationRequest s = .next t ∧ t.groups = s.groups ∧ (∀ x, OffEntry (some f) x → t.byte x = s.byte x) ∧
      let log := levelShift f.level
      t.out = s.out ++ [.atsAnswer r.port r.rid r.pasid (r.va / 2 ^ 16 * 2 ^ 16) (f.pa / 2 ^ log * 2 ^ log) log true (!r.readOnly)]) ∧
  (∀ s r n, s.input = .endpoint r → s.portOpen r.port = true → r.checked = false → r.beyond = false →
    (r.readOnly = true → s.tagsFull r.port = false) → n = (if r.readOnly then r.len else r.data.length) → 0 < n →
    (r.kind = .memory → Permitted s r → r.pasid ≠ none ∨ s.inArrivalWindow r.va = false → r.va % 2 ^ 16 + n ≤ 2 ^ 16 →
      (∃ pa f, s.endpointPlace r.port (r.pasid.getD 0) r.va (!r.readOnly) = .at pa f) →
      ∃ todo, Parts r.va n todo ∧ exec .endpointMemoryRequest s = .next { s with
        input := .none, endpoints := s.endpoints ++ [{ r with checked := true, todo := todo }] }) ∧
    (r.kind = .translated → s.acsRefused r.port r.rid true = false → (∀ a ∈ framesOf r.va n, s.populated a = true) →
      (r.readOnly = false → s.notified r.va n = false) →
      ∃ todo, Parts r.va n todo ∧ exec .endpointMemoryRequest s = .next { s with
        input := .none, endpoints := s.endpoints ++ [{ r with checked := true, todo := todo }] })) ∧
  (∀ s r, s.input = .endpoint r → s.portOpen r.port = true → r.checked = false → r.kind = .memory → (r.readOnly = true → s.tagsFull r.port = false) →
    r.execute = true ∨ r.privileged = true ∨ r.unsupported = true ∨ 65535 < r.pasid.getD 0 ∨ s.acsRefused r.port r.rid false = true →
    ∃ t, exec .endpointMemoryRequest s = .next t ∧ t.mem = s.mem ∧ t.groups = s.groups ∧
      t.out = s.out ++ (if r.readOnly then [.unsupported r.port r.rid] else []) ∧
      Assoc.get 0 t.aer r.port = Assoc.get 0 s.aer r.port + 1) ∧
  (∀ s i k r p flat f, s.input = .two i k → s.endpoints[i]? = some r → r.todo[k]? = some p → PartAt s r p flat f →
    (r.readOnly = false → p.1 + p.2 ≤ r.data.length → s.spanShackled flat p.2 = false →
      ∃ t, exec .endpointMemoryRequest s = .next t ∧ t.out = s.out ∧
        (∀ x, OffEntry f x →
          x ∉ (match f with | some e => s.setAD e true | none => s).spoiled (cellsFrom flat ((r.data.drop p.1).take p.2)) →
            t.byte x = if flat ≤ x ∧ x < flat + p.2 then r.data.getD (p.1 + x - flat) 0 else s.byte x) ∧
        t.endpoints = if r.todo.erase p = [] then s.endpoints.eraseIdx i else s.endpoints.set i { r with todo := r.todo.erase p, got := [] }) ∧
    (r.readOnly = true → s.spanPoisoned flat p.2 = false →
      ∃ t, exec .endpointMemoryRequest s = .next t ∧ t.groups = s.groups ∧ (∀ x, OffEntry f x → t.byte x = s.byte x) ∧
        (r.todo.erase p ≠ [] → t.out = s.out ∧ ∃ got, t.endpoints = s.endpoints.set i { r with todo := r.todo.erase p, got := got } ∧
          ∀ j, Assoc.find j got = (Assoc.find j r.got).or (if p.1 ≤ j ∧ j < p.1 + p.2 then some (s.byte (flat + j - p.1)) else none)) ∧
        (r.todo = [p] → t.endpoints = s.endpoints.eraseIdx i ∧ ∃ bs : List Byte, t.out = s.out ++ [.completion r.port r.rid bs] ∧
          bs.length = r.len ∧ ∀ j < r.len, bs[j]? = some (((Assoc.find j r.got).or
            (if p.1 ≤ j ∧ j < p.1 + p.2 then some (s.byte (flat + j - p.1)) else none)).getD 0)))) ∧
  (∀ s port rid pasid va rd wr last prgi, s.input = .pageRequest port rid pasid va rd wr last prgi false → s.portOpen port = true →
    s.acsRefused port rid false = false → pasid.getD 0 ≤ 65535 →
    s.pasidServes port (pasid.getD 0) rid = true → s.pasidFlag port (pasid.getD 0) 2 = true → (s.ring 2).room = false →
    ∃ t rec_, exec .pageRequest s = .next t ∧ Assoc.get [] t.rings 2 = Assoc.get [] s.rings 2 ++ [rec_] ∧ rec_.length = 32 ∧
      fieldOf rec_ 0 2 = s.pasidJob port (pasid.getD 0) % 2 ^ 16 ∧ fieldOf rec_ 16 8 = va / 2 ^ 16 * 2 ^ 16 % 2 ^ 64 ∧
      fieldOf rec_ 6 2 = prgi % 512 ∧ t.groups = s.groups ∧ t.mem = s.mem) ∧
  (∀ s x, s.input = .word x → bitsOf x 63 1 = 1 →
    exec .prgresp s = .next { s with
      input := .none
      out := s.out ++ [.prgResponse (bitsOf x 45 3) (bitsOf x 0 16) (bitsOf x 32 9) (bitsOf x 41 4)
        (if bitsOf x 62 1 = 1 then some (bitsOf x 16 16) else none)] }) ∧
  (∀ s p, s.input = .one p →
    (∃ t, exec .dpcContainment s = .next t ∧ t.portOpen p = false ∧ (∀ j, j ≠ p → t.portOpen j = s.portOpen j) ∧ t.groups = s.groups ∧
      Assoc.get 0 t.aer p = Assoc.get 0 s.aer p + 1) ∧
    (∃ t, exec .dpcRelease s = .next t ∧ t.portOpen p = (decide (p < 8) && Assoc.get false s.links p) ∧
      (∀ j, j ≠ p → t.portOpen j = s.portOpen j) ∧ t.groups = s.groups) ∧
    ∃ t, exec .portLinkUp s = .next t ∧ t.portOpen p = (decide (p < 8) && !Assoc.get false s.contained p) ∧
      (∀ i < 16, Assoc.get 0 t.mailbox (16 * p + i) = 0) ∧
      (∀ j i, j ≠ p → i < 16 → Assoc.get 0 t.mailbox (16 * j + i) = Assoc.get 0 s.mailbox (16 * j + i)) ∧ t.groups = s.groups) ∧
  (∀ s p removed, s.input = .two p removed → removed ≠ 0 →
    ∃ t, exec .dpcContainment s = .next t ∧ Assoc.get false t.links p = false ∧ t.portOpen p = false ∧
      (∀ j, j ≠ p → t.portOpen j = s.portOpen j) ∧ t.groups = s.groups)

/-- 10 R217, R218, R231, 11 R251: INVCMD starts an invalidation, which ends when no function of an endpoint and no access is awaited, and then no
covered translation is held; a function's answer or IVTIMEOUT ends its awaiting; MIGCMD copies a frame and stores the new entry. -/
def Sys2Proof.Claims.InvalidationsAndMigrations : Prop :=
  (∀ s x kind, s.input = .word x → bitsOf x 31 1 = 1 → bitsOf x 0 2 = kind → s.invalidation = none → bitsOf x 2 1 = 0 →
    ∃ t, exec (match kind with | 0 => .invalidatePage | 1 => .invalidateRange | 2 => .invalidateJob | _ => .invalidateAll) s = .next t ∧
      t.invalidation = some {
        kind := kind, job := s.ctlNat .trans 0x38 2, va := s.ctlNat .trans 0x30 8, log := (if kind = 1 then bitsOf x 8 5 else 0)
        endpt := false, awaiting := [], since := s.clock } ∧
      t.ctlNat .trans 0x40 4 % 2 = 1 ∧ t.groups = s.groups ∧ t.mem = s.mem ∧ t.tlb = s.tlb) ∧
  (∀ s v, s.invalidation = some v → v.awaiting = [] → s.locks = [] →
    (∀ o ∈ s.ops, o.2.accs = [] ∨ (v.kind ≠ 3 ∧ ∀ g, Assoc.find o.2.group s.groups = some g → g.job ≠ v.job)) →
    (∀ x ∈ s.groups, x.2.matrixOp = none ∨ (v.kind ≠ 3 ∧ x.2.job ≠ v.job)) →
    ∃ t, exec .invalidationComplete s = .next t ∧ t.invalidation = none ∧ (∀ x ∈ t.tlb, v.covers x.job x.page = false) ∧
      (∀ x ∈ s.tlb, v.covers x.job x.page = false → x ∈ t.tlb) ∧ (∀ n ∈ t.nodes, v.coversNode n = false) ∧
      t.ctlNat .trans 0x40 4 % 4 = 2 ∧ t.mem = s.mem ∧
      ∀ k g, Assoc.find k s.groups = some g → ∃ g', Assoc.find k t.groups = some g' ∧ g' = { g with lastPage := g'.lastPage } ∧
        (∀ x ∈ g'.lastPage, v.covers g.job x.2.page = false) ∧ ∀ x ∈ g.lastPage, v.covers g.job x.2.page = false → x ∈ g'.lastPage) ∧
  (∀ s v port rid n, s.input = .completion port rid → s.invalidation = some v → v.awaiting = [(port, rid, n)] →
    exec .atsInvalidateCompletion s = .next { s with input := .none, invalidation := some { v with awaiting := [] } }) ∧
  (∀ s v, s.invalidation = some v → v.awaiting ≠ [] → v.since + 800 * s.ctlNat .io 0x1C 4 ≤ s.clock →
    ∃ t, exec .atsInvalidateTimeout s = .next t ∧ t.invalidation = some { v with awaiting := [] } ∧ t.groups = s.groups ∧
      ∀ p, t.portOpen p = (s.portOpen p && decide (∀ x ∈ v.awaiting, x.1 ≠ p))) ∧
  (∀ s, s.migration = none →
    let pte := s.ctlNat .trans 0x48 8
    let new_ := s.ctlNat .trans 0x50 8
    (inHbm pte || inTier2 pte) = true → pte % 8 = 0 → pteMig (s.nat pte 8) = true → pteMig new_ = false → pteV new_ = false →
    ∃ t, exec .migrationStart s = .next t ∧
      t.migration = some { pte := pte, old := s.nat pte 8, new := new_, level := s.levelOf pte } ∧ t.groups = s.groups ∧ t.mem = s.mem) ∧
  (∀ s m, s.migration = some m → m.drained = false → (∀ o ∈ s.ops, o.2.accs = []) → (∀ x ∈ s.groups, x.2.matrixOp = none) → s.locks = [] →
    s.frameWaits (pteAddr m.old) (frameSize m.level m.old) = false →
    (pteV m.new = true →
      exec .migrationDrainDone s = .next { s with input := .none, migration := some { m with drained := true } }) ∧
    (pteV m.new = false → s.tickets = [] → s.waiting = [] → s.lineWaits m.pte = false → m.new < 2 ^ 64 →
      ∃ t, exec .migrationDrainDone s = .next t ∧ t.migration = none ∧ t.nat m.pte 8 = m.new ∧ t.ctlNat .trans 0x58 4 % 4 = 2 ∧
        t.groups = s.groups ∧ ∀ x, x < m.pte ∨ m.pte + 8 ≤ x → t.byte x = s.byte x)) ∧
  (∀ s m, s.migration = some m → m.drained = true → s.tickets = [] → s.waiting = [] → Memory.wf s.mem = true → m.pte + 8 ≤ 2 ^ 52 →
    s.copyServed m = true → (∀ x ∈ s.groups, x.2.wait = .none) →
    let size := frameSize m.level m.old
    m.pte + 8 ≤ pteAddr m.new ∨ pteAddr m.new + size ≤ m.pte →
    (∀ a < size, pteAddr m.new + a < pteAddr m.old ∨ pteAddr m.old + size ≤ pteAddr m.new + a) → m.new < 2 ^ 64 →
    ∃ t, exec .migrationCopyDone s = .next t ∧ t.migration = none ∧ (∀ a < size, t.byte (pteAddr m.new + a) = s.byte (pteAddr m.old + a)) ∧
      t.nat m.pte 8 = m.new ∧ t.groups = s.groups ∧ t.ctlNat .trans 0x58 4 % 4 = 2 ∧
      ∀ x, x < m.pte ∨ m.pte + 8 ≤ x → x < pteAddr m.new ∨ pteAddr m.new + size ≤ x → t.byte x = s.byte x)

/-- 13 R291, R292, R294 to R296, R301, R302: WHCMD makes an acceptable slot current and is refused otherwise; WSCMD starts an installation of a sound
image, which ends with the store holding it where every chunk has its digest; a rate point and MUCAP are set. -/
def Sys2Proof.Claims.WeightsAndRates : Prop :=
  (∀ s x, s.input = .word x → bitsOf x 31 1 = 1 →
    let n := bitsOf x 0 4
    let cur := s.ctlNat .memctl 0x428 4
    let accepts := (s.slotState n = 0 ∨ s.slotState n = 3) ∧ s.slotGen n % 16 = n ∧ s.slotGen n ≠ 0 ∧
      (bitsOf cur 8 1 = 1 → s.slotGen n = if s.slotGen (bitsOf cur 0 4) = 2 ^ 32 - 1 then 1 else s.slotGen (bitsOf cur 0 4) + 1)
    ∃ t, exec .weightSwitch s = .next t ∧ t.groups = s.groups ∧
      (accepts → t.ctlNat .memctl 0x428 4 = n + 2 ^ 8 ∧ t.slotState n = 1 ∧ t.slotRefs n = 0 ∧
        t.ctlNat .memctl 0x430 4 / 2 % 2 = 1) ∧
      (¬ accepts → t.mem = s.mem ∧ t.ctlNat .memctl 0x428 4 = s.ctlNat .memctl 0x428 4 ∧
        t.ctlNat .memctl 0x430 4 / 4 % 2 = 1)) ∧
  (∀ s x, s.input = .word x → bitsOf x 63 1 = 1 → s.install = none →
    let a := bitsOf x 8 44 * 256
    let len := s.nat (a + 0x10) 8
    let chunks := s.nat (a + 0x18) 4
    let headed := s.nat a 4 = 0x4C574D46 ∧ s.nat (a + 4) 2 = 1 ∧ s.nat (a + 6) 2 = 0 ∧ s.nat (a + 0x1C) 4 = 0
    let sized := 0 < len ∧ len ≤ 6000000000000 ∧ chunks = (len + 2 ^ 26 - 1) / 2 ^ 26 ∧ chunks ≤ 89407
    let signed := Config.manifestVerifies (memBytes s.mem a (0x20 + 32 * chunks)) (memBytes s.mem (a + 0x20 + 32 * chunks) 49856) = true
    let newer := s.lastSeqno ≤ s.nat (a + 8) 8
    ∃ t, exec .weightStoreInstall s = .next t ∧ t.groups = s.groups ∧ t.mem = s.mem ∧
      (headed → sized → signed → newer → t.weights = none ∧ t.ctlNat .memctl 0x460 4 % 2 = 1 ∧ ∃ i, t.install = some i ∧ i.base = a ∧
        i.seqno = s.nat (a + 8) 8 ∧ i.length = s.nat (a + 0x10) 8 ∧ i.digests.length = s.nat (a + 0x18) 4 ∧
        i.digest = digestOf (memBytes s.mem a (0x20 + 32 * s.nat (a + 0x18) 4)) ∧
        i.signature = memBytes s.mem (a + 0x20 + 32 * s.nat (a + 0x18) 4) 49856) ∧
      (∀ c, headed → (¬ sized ∧ c = 3) ∨ (sized ∧ ¬ signed ∧ c = 1) ∨ (sized ∧ signed ∧ ¬ newer ∧ c = 4) → t.install = none ∧
        t.weights = s.weights ∧ bitsOf (t.ctlNat .memctl 0x460 4) 4 4 = c ∧
        bitsOf (t.ctlNat .memctl 0x460 4) 2 1 = 1)) ∧
  (∀ s i, s.install = some i →
    let bytes := spanCells s.mem (i.base + chunkBase i.digests.length) i.length
    ∃ t, exec .weightInstallDone s = .next t ∧ t.install = none ∧ t.ctlNat .memctl 0x460 4 % 2 = 0 ∧ t.groups = s.groups ∧
      (chunksMatch i.length i.digests bytes = true → t.lastSeqno = i.seqno ∧
        t.weights = some {
          seqno := i.seqno, length := i.length, digests := i.digests, signature := i.signature, digest := i.digest, bytes := bytes }) ∧
      (chunksMatch i.length i.digests bytes = false → t.lastSeqno = s.lastSeqno ∧ t.weights = s.weights ∧
        bitsOf (t.ctlNat .memctl 0x460 4) 4 4 = 2)) ∧
  (∀ s ch, ch < 256 →
    let v := s.ctlNat .memctl (4 * ch) 4
    (∀ code, s.input = .two ch code → code < 3 → bitsOf v 4 1 = 0 → bitsOf v 0 2 ≠ code →
      ∃ t, exec .hrateTargetWrite s = .next t ∧ bitsOf (t.ctlNat .memctl (4 * ch) 4) 0 2 = code ∧ bitsOf (t.ctlNat .memctl (4 * ch) 4) 4 1 = 1 ∧
        bitsOf (t.ctlNat .memctl (4 * ch) 4) 2 2 = bitsOf v 2 2 ∧ t = { s with input := .none, ctl := t.ctl }) ∧
    (s.input = .one ch → bitsOf v 4 1 = 1 →
      ∃ t, exec .hrateSwitchDone s = .next t ∧ bitsOf (t.ctlNat .memctl (4 * ch) 4) 2 2 = bitsOf v 0 2 ∧
        bitsOf (t.ctlNat .memctl (4 * ch) 4) 4 1 = 0 ∧ bitsOf (t.ctlNat .memctl (4 * ch) 4) 0 2 = bitsOf v 0 2 ∧
        t = { s with input := .none, ctl := t.ctl })) ∧
  (∀ s d x, s.input = .two d x → d < 2 → 1 ≤ bitsOf x 0 10 → bitsOf x 0 10 ≤ 512 →
    ∃ t, exec .mucapWrite s = .next t ∧ t.mucap d = bitsOf x 0 10 ∧ t.mucap (1 - d) = s.mucap (1 - d) ∧
      t = { s with input := .none, ctl := t.ctl })

/-- 13 R296, R304, R305: a power loss keeps only the store, the last sequence number and the firmware; at power-on a firmware image is measured
and, when it does not verify, index 6 takes the cause and the module is in recovery, where it takes a new image; otherwise the firmware measures the
boot ROM, the fuses and the store's image (log 92 for the order); SPDM answers with the log over the port, or management port, that asked. -/
def Sys2Proof.Claims.PowerAndMeasurement : Prop :=
  (∀ s, exec .powerLoss s = .next { State.reset with
    agenda := s.agenda, fresh := s.fresh, out := s.out, firmware := s.firmware, weights := s.weights, lastSeqno := s.lastSeqno }) ∧
  (∀ s, ∃ t, exec .powerOn s = .next t ∧ t.groups = [] ∧ t.mem = [] ∧ t.weights = s.weights ∧ t.firmware = s.firmware ∧
    (s.firmware = none → t.mlog = [(6, 3)] ∧ t.bootState = 3) ∧
    ∀ b, s.firmware = some b →
      (Config.firmwareSound b = true → Config.firmwareVerifies b = true → t.bootState = 0 ∧
        t.mlog = [(2, digestOf b), (1, Config.romIdentity), (3, Config.fuseState)] ++
        (match s.weights with | some w => [(4, w.digest)] | none => [])) ∧
      (Config.firmwareSound b = false → t.mlog = [(2, digestOf b), (6, 2)] ∧ t.bootState = 3) ∧
      (Config.firmwareSound b = true → Config.firmwareVerifies b = false → t.mlog = [(2, digestOf b), (6, 1)] ∧ t.bootState = 3)) ∧
  (∀ s b, s.input = .bytes b → s.bootState = 3 →
    exec .recoveryImageAccept s = .next { s with input := .none, firmware := some b }) ∧
  (∀ s p, s.input = .one p → exec .spdmMeasurementRequest s = .next { s with
    input := .none, out := s.out ++ [.spdmAnswer (some p) s.mlog s.m (Config.sign s.mlog s.m)] }) ∧
  ∀ s, s.input = .none → exec .spdmMeasurementRequest s = .next { s with
    input := .none, out := s.out ++ [.spdmAnswer none s.mlog s.m (Config.sign s.mlog s.m)] }

/-- 13 R297 to R300: an election among reachable modules, also when the upstream is silent, makes the candidate of lowest SERIAL leader; of two
leaders the higher SERIAL follows, and the survivor's chain takes in the modules known under both; a plan that verifies is taken, what matches its
manifest is kept; chunks that match are stored, in frames of the firmware's choice (log 90), and forwarded as planned; members take chip numbers and
measure the leader's image; keepalives are relayed. -/
def Sys2Proof.Claims.PodBoot : Prop :=
  let outcome := fun (s t : State) (l : Member) =>
    t.bootState = 1 ∧ t.ctlNat .memctl 0x448 8 = l.serial % 2 ^ 64 ∧ t.leads = decide (l.serial = mySerial) ∧ t.groups = s.groups
  (∀ s ms l, s.input = .members ms → (ms.map (fun m => m.serial)).Nodup → ms.length ≤ 255 → l.serial < 2 ^ 64 → l.candidate = true →
    let self : Member := ⟨mySerial, s.weights.isSome⟩
    let reached := self :: ms.filter (fun m => decide (m.serial ≠ mySerial))
    l ∈ reached → (∀ m ∈ reached, m.candidate = true → l.serial ≤ m.serial) →
    (s.bootState ≠ 3 → ∃ t, exec .podElection s = .next t ∧ outcome s t l) ∧
    (s.bootState ≠ 3 → s.leads = false → s.pod.chain ≠ [] → 16 * 2 ^ 20 ≤ 35 * (s.clock - s.pod.heard) → ∃ t, exec .upstreamSilent s = .next t ∧
      outcome s t l)) ∧
  (∀ s serial ms, s.input = .leader serial ms → serial ≠ mySerial → serial < 2 ^ 64 → s.bootState ≠ 3 →
    (s.leads = true →
      ∃ t, exec .leaderContact s = .next t ∧ t.bootState = 1 ∧ t.leads = decide (mySerial < serial) ∧ t.groups = s.groups ∧
        (ms.length + s.pod.chain.length < 255 → ∀ m ∈ ms ++ s.pod.chain, ∃ c ∈ t.pod.chain, c.serial = m.serial)) ∧
    (s.leads = false → s.bootState = 0 ∨ serial < s.ctlNat .memctl 0x448 8 →
      ∃ t, exec .leaderContact s = .next t ∧ t.bootState = 1 ∧ t.leads = false ∧ t.ctlNat .memctl 0x448 8 = serial ∧ t.groups = s.groups)) ∧
  (∀ s leader manifest digest keep relay, s.input = .plan leader manifest digest keep relay → s.leads = false → s.bootState = 1 →
    s.ctlNat .memctl 0x448 8 = leader →
    ∃ t, exec .podElection s = .next t ∧ t.groups = s.groups ∧ t.mem = s.mem ∧
      (Config.leaderVerifies manifest = true → t.pod.plan = keep ∧ t.pod.relay = relay ∧ t.pod.manifest = manifest ∧
        (∀ c, c ∈ t.pod.kept ↔ c ∈ s.pod.kept ∧ (c.index, c.digest) ∈ manifest) ∧
        t.out = s.out ++ [.chunkReport leader (t.pod.kept.map (fun c => c.index))]) ∧
      (Config.leaderVerifies manifest = false → t.pod = s.pod ∧ t.out = s.out)) ∧
  (∀ (s : State) w serial i, s.leads = true → s.weights = some w →
    let n := min (2 ^ 26) (w.length - i * 2 ^ 26)
    s.chunkOut serial i = .chunk serial i n (spanCells w.bytes (i * 2 ^ 26) n)) ∧
  (∀ s serial held next, s.input = .held serial held → s.leads = true → s.bootState = 1 → (∃ m ∈ s.pod.chain, m.serial = serial) →
    Assoc.find serial s.pod.reports = none → s.pod.after mySerial = some next →
    ∃ t, exec .heldChunkReport s = .next t ∧ Assoc.find serial t.pod.reports = some held ∧
      t.out = s.out ++ ((Assoc.get [] s.pod.plans serial).filter (fun i => !held.contains i)).map (s.chunkOut next)) ∧
  (∀ s index len cells d, s.input = .chunk index len cells → s.leads = false → s.bootState = 1 → Assoc.find index s.pod.manifest = some d →
    ∃ t, exec .chunkReceived s = .next t ∧ t.pod.heard = s.clock ∧
      (Config.shake256 len cells = d → index ∈ s.pod.plan → (∀ c ∈ s.pod.kept, c.index ≠ index) →
        ∃ frame, frame % 2 ^ 16 = 0 ∧ t.pod.kept = s.pod.kept ++ [{ index := index, digest := d, length := len, frame := frame }] ∧
          ∀ x, t.byte x =
            overwritten (cells.map (fun c => (frame + c.1, c.2))) x (if frame ≤ x ∧ x < frame + len then 0 else s.byte x)) ∧
      (Config.shake256 len cells = d → ∀ n, s.pod.after mySerial = some n → index ∈ s.pod.relay → Output.chunk n index len cells ∈ t.out) ∧
      (Config.shake256 len cells ≠ d → t.pod.kept = s.pod.kept ∧
        ∀ b, s.pod.before mySerial = some b → t.out = s.out ++ [.chunkRequest b index])) ∧
  (∀ s serial index, s.input = .two serial index → s.pod.after mySerial = some serial → s.leads = true ∨ index ∈ s.pod.relay →
    exec .chunkRerequest s = .next { s with
      input := .none, out := s.out ++ [s.chunkOut serial index], pod := { s.pod with sent := if s.leads then s.clock else s.pod.sent } }) ∧
  (∀ s c n, s.input = .two c n → s.bootState = 1 → s.leads = false → c < 256 → n ≤ 256 →
    ∃ t, exec .chipAssignment s = .next t ∧ t.chipId = c ∧ t.podmask = 2 ^ n - 1 ∧ t.bootState = 2 ∧ t.groups = s.groups ∧
      t.mlog = s.mlog ++ [(5, s.pod.mdigest)]) ∧
  (∀ s n, s.leads = true → s.pod.after mySerial = some n →
    exec .keepaliveSend s = .next { s with input := .none, out := s.out ++ [.keepalive n], pod := { s.pod with sent := s.clock } }) ∧
  ∀ s n, s.leads = false → s.pod.chain ≠ [] → s.pod.after mySerial = some n →
    exec .keepaliveReceived s = .next { s with input := .none, out := s.out ++ [.keepalive n], pod := { s.pod with heard := s.clock } }

/-- 13 R306 to R308: soft errors are counted, saturating, and an uncorrectable one poisons its sector, image line or sector of the instruction store; a failed core
is replaced by a spare while one is left and retired otherwise, and a group of it restarts exactly before an instruction that has made no access or
decision that the spare lacks, with its registers as they were (log 97); a failed slice is taken over by the spare slice. -/
def Obligations.ErrorsAndSpares : Prop :=
  let counts := fun (s t : State) (off : Nat) => t.ctlNat .memctl off 4 = min (2 ^ 32 - 1) (s.ctlNat .memctl off 4 + 1)
  (∀ s d, s.input = .one d → d < 2 → ∃ t, exec .correctedError s = .next t ∧ counts s t (0x410 + 8 * d) ∧
    t = { s with input := .none, ctl := t.ctl }) ∧
  (∀ s d a, s.input = .sector d a → d < 2 → ∃ t, exec .uncorrectableError s = .next t ∧ counts s t (0x414 + 8 * d) ∧
    t.poisoned a = true ∧ t.groups = s.groups ∧ t.mem = s.mem) ∧
  (∀ s a, s.input = .one a → inCxl a = true → ∃ t, exec .uncorrectableError s = .next t ∧ t.poisoned a = true ∧
    t = { s with input := .none, poison := t.poison }) ∧
  (∀ s d key off g, s.input = .imageLine d key off → d < 2 → Assoc.find key s.groups = some g →
    ∃ t g', exec .uncorrectableError s = .next t ∧ counts s t (0x414 + 8 * d) ∧ Assoc.find key t.groups = some g' ∧
      g'.imagePoisoned off 1 = true ∧ g' = { g with imgPoison := g'.imgPoison }) ∧
  (∀ s d n k l, s.input = .storeSector d n k → d < 2 → Assoc.find n s.slots = some l →
    ∃ t l', exec .uncorrectableError s = .next t ∧ counts s t (0x414 + 8 * d) ∧ Assoc.find n t.slots = some l' ∧
      k ∈ l'.poison ∧ l' = { l with poison := l'.poison } ∧ t.groups = s.groups ∧ t.mem = s.mem) ∧
  (∀ s good bad, s.input = .scrub good bad → ∃ t, exec .scrubPass s = .next t ∧ (∀ a ∈ bad, t.poisoned a = true) ∧
    t.groups = s.groups ∧ t.mem = s.mem) ∧
  (∀ s core, s.input = .one core → core < 256 → Assoc.get false s.draining core = false → Assoc.get false s.retiredCores core = false →
    ∃ t, exec .coreFailed s = .next t ∧
      ((s.sparesOf (dieOf core)).used < 4 → Assoc.get false t.draining core = true ∧ t.groups = s.groups ∧
        (t.sparesOf (dieOf core)).used = (s.sparesOf (dieOf core)).used + 1) ∧
      (4 ≤ (s.sparesOf (dieOf core)).used → Assoc.get false t.retiredCores core = true ∧
        ∀ key g, Assoc.find key s.groups = some g → g.core = core → ∃ g', Assoc.find key t.groups = some g' ∧ g'.stop = .lost)) ∧
  (∀ s core, s.input = .failure core [] [] [] → Assoc.get false s.draining core = true → (∀ x ∈ s.groups, x.2.core ≠ core) →
    ∃ t, exec .spareCoreDrainDone s = .next t ∧ Assoc.get false t.draining core = false ∧ t.groups = s.groups ∧
      (∀ x ∈ t.tlb, x.core ≠ core) ∧ t.mem = s.mem) ∧
  (∀ s core key g, s.input = .failure core [] [] [] → Assoc.get false s.draining core = true → s.groupsOn core = [key] →
    Assoc.find key s.groups = some g → s.copies = [] → s.bells = [] → g.matrixOp = none →
    ∃ t g', exec .spareCoreDrainDone s = .next t ∧ Assoc.get false t.draining core = false ∧ t.mem = s.mem ∧
      Assoc.find key t.groups = some g' ∧ g'.core = g.core ∧ g'.lines = g.lines ∧ g'.k = g.k ∧ g'.p = g.p ∧ g'.q = g.q ∧
      (∀ j, j ≠ key → Assoc.find j t.groups = Assoc.find j s.groups) ∧
      (s.ops = [] → g.geoOp = none → g' = g) ∧
      (∀ o, s.ops = [] → g.geoOp = some o → g.geoStoppable o = true →
        g'.geoOp = none ∧ (g'.live o.slot).pc = o.pc ∧ g'.geostg = o.codes ∧ g'.geodone = g.geodone) ∧
      (∀ id o, s.ops = [(id, o)] → o.group = key → g.geoOp = none → o.sent = [] → (∀ a ∈ o.accs, a.2.chip = none) → o.accs.length = o.size →
        g.issues = o.issue + 1 → g.stop = .running → g.wait = .none ∨ g.wait = .remote id → (g.live o.slot).mask = o.owner →
        (g.live o.slot).pc = (pcOfLow o.pcword).next →
        t.ops = [] ∧ (g'.live o.slot).pc = pcOfLow o.pcword ∧ g'.wait = .none ∧ ∀ r ∈ o.dest.regs, r ∉ g'.busy)) ∧
  (∀ s die k, s.input = .two die k → die < 2 → k < 47 → k ∉ (s.sparesOf die).deadSlices →
    ∃ t, exec .l2SliceFailed s = .next t ∧ t.groups = s.groups ∧
      ((s.sparesOf die).slice = none → t.sparesOf die = { s.sparesOf die with slice := some k, takeover := true }) ∧
      ((s.sparesOf die).slice ≠ none → k ∈ (t.sparesOf die).deadSlices)) ∧
  (∀ s die sectors l, s.input = .failure die sectors l [] → (s.sparesOf die).takeover = true → s.waiting = [] →
    ∃ t, exec .l2SpareTakeoverDone s = .next t ∧ (t.sparesOf die).takeover = false ∧ (∀ a ∈ sectors, t.poisoned a = true) ∧
      t.groups = s.groups ∧ t.mem = s.mem)

/-- 04 R77, R92, 11 R239, R240, R248, R256, R257, 03 R63: a hart reads and writes memory where the frame keys allow its mode, and otherwise meets an
access fault; in the notify window it reads zero and makes a notify store; it reads a context image in M or S mode and writes that of a group
stopped by a fault; control registers keep their reserved bits; KEYS CSRs are read and written in M mode; an access behind an open port leaves
through it; it reads a port's error log and releases the port (the registers' form is presumed, log 151); an HDM decoder takes a lawful range. -/
def Obligations.HartAccesses : Prop :=
  (∀ s hart mode addr write len data, s.input = .hart hart mode addr write len data → hart < 32 →
    let n := if write then data.length else len
    let notify := s.populated addr = false ∧ s.ctlNat .io 8 8 ≤ addr ∧ addr < s.ctlNat .io 8 8 + 2 ^ 28
    let refused := ∃ a ∈ framesOf addr n, hartRefused mode ((s.hartKeys hart).effective mode) (s.frameKey a) = true
    ∃ t, exec .hartMemoryAccess s = .next t ∧
      (notify → write = true → exec .notifyArrival { s with input := .notify (some hart) addr true } = .next t) ∧
      (notify → write = false → t = { s with input := .none, fresh := s.fresh + 1, out := s.out ++ [.hartData (List.replicate len 0)] }) ∧
      (¬ notify → refused → t = { s with input := .none, out := s.out ++ [.hartFault write] }) ∧
      (¬ notify → ¬ refused → (∀ a ∈ framesOf addr n, s.populated a = true) → (∀ i < n, s.homeWaits (addr + i) = false) →
        (∀ e ∈ s.hartq, e.hart ≠ hart) →
        (write = false → (∀ i < n, s.poisoned (addr + i) = false) →
          t = { s with input := .none, fresh := s.fresh + 1, out := s.out ++ [.hartData (memBytes s.mem addr n)] }) ∧
        (write = true → s.spanShackled addr n = false →
          ∀ i, i ∉ s.spoiled (cellsFrom addr data) → t.byte i = if addr ≤ i ∧ i < addr + n then data.getD (i - addr) 0 else s.byte i))) ∧
  (∀ s hart mode core frame off write len data g, s.input = .image hart mode core frame off write len data → hart < 32 →
    Assoc.find (groupKey core frame) s.groups = some g →
    ∃ t, exec .hartMemoryAccess s = .next t ∧ t.mem = s.mem ∧
      (mode = .u ∨ mode = .vs ∨ mode = .vu → t = { s with input := .none, out := s.out ++ [.hartFault write] }) ∧
      (mode = .m ∨ mode = .hs →
        (write = false → (∀ i < len, g.imagePoisoned (off + i) 1 = false) →
          t = { s with
            input := .none, fresh := s.fresh + 1
            out := s.out ++ [.hartData ((List.range len).map (fun i => g.imageByte (off + i)))] }) ∧
        (write = true → g.stop ≠ .faulted → t = { s with input := .none, out := s.out ++ [.hartFault true] }) ∧
        (write = true → g.stop = .faulted → ∀ n x, n < 32 → off = 0x100 + 4 * n → data = leBytes 4 x →
          ∃ g', Assoc.find (groupKey core frame) t.groups = some g' ∧ g'.kreg n = BitVec.ofNat 32 x ∧
            (∀ j, j ≠ n → g'.kreg j = g.kreg j) ∧ g'.uAbsent = true))) ∧
  (∀ s hart mode off size x b blk, s.input = .register hart mode blk off size x → hart < 32 → blockOf blk = some b →
    blockReached mode b off false = true →
    exec .hartMemoryAccess s = .next { s with
      input := .none, fresh := s.fresh + 1, out := s.out ++ [.hartData ((List.range size).map (fun i => s.regByte b (off + i)))] }) ∧
  (∀ s hart mode off size x b blk, s.input = .register hart mode blk off size x → hart < 32 → blockOf blk = some b →
    startsCommand b off x = false → (∀ y ∈ s.groups, y.2.wait ≠ .trapRoom) →
    ∃ t, exec .registerWrite s = .next t ∧ t.mem = s.mem ∧ t.groups = s.groups ∧
      (blockReached mode b off true = false → t = { s with input := .none, out := s.out ++ [.hartFault true] }) ∧
      (blockReached mode b off true = true → b = .sched → off = 0 → size = 4 →
        t.ctlNat .sched 0 4 = s.ctlNat .sched 0 4 / 2 ^ 12 * 2 ^ 12 + x % 2 ^ 12)) ∧
  (∀ s hart x csr, s.input = .register hart .m 5 csr 8 x → hart < 32 → csr = 0x7C0 ∨ csr = 0x7C1 →
    (∃ t, exec .registerWrite s = .next t ∧
      (t.hartKeys hart).mkeys = (if csr = 0x7C0 then BitVec.ofNat 16 x else (s.hartKeys hart).mkeys) ∧
      (t.hartKeys hart).mgkeys = (if csr = 0x7C1 then BitVec.ofNat 16 x else (s.hartKeys hart).mgkeys) ∧
      (∀ h, h ≠ hart → t.hartKeys h = s.hartKeys h) ∧ t = { s with input := .none, harts := t.harts }) ∧
    exec .hartMemoryAccess s = .next { s with
      input := .none, fresh := s.fresh + 1
      out := s.out ++ [.hartData (leBytes 2 (if csr = 0x7C0 then (s.hartKeys hart).mkeys else (s.hartKeys hart).mgkeys).toNat)] }) ∧
  (∀ s hart mode port bus write len data, s.input = .bar hart mode port bus write len data → hart < 32 → s.portOpen port = true →
    exec .hartMemoryAccess s = .next { s with input := .none, out := s.out ++ [.bar port bus write len data] }) ∧
  (∀ s port data, s.input = .barReply port data →
    exec .hartMemoryAccess s = .next { s with input := .none, fresh := s.fresh + 1, out := s.out ++ [.hartData data] }) ∧
  (∀ s hart mode port reg write x, s.input = .portReg hart mode port reg write x → hart < 32 → port < 8 →
    (mode ≠ .m → mode ≠ .hs →
      exec .hartMemoryAccess s = .next { s with input := .none, out := s.out ++ [.hartFault write] }) ∧
    (mode = .m ∨ mode = .hs →
      (reg = .aer → write = false → exec .hartMemoryAccess s = .next { s with
        input := .none, fresh := s.fresh + 1, out := s.out ++ [.hartData (leBytes 4 (Assoc.get 0 s.aer port))] }) ∧
      (reg = .dpc → write = true → bitsOf x 0 1 = 1 → ∃ t, exec .hartMemoryAccess s = .next t ∧
        t.portOpen port = Assoc.get false s.links port ∧ (∀ p, p ≠ port → t.portOpen p = s.portOpen p) ∧
        t = { s with input := .none, contained := t.contained }))) ∧
  (∀ s hart mode n base size ways, s.input = .hdm hart mode n base size ways → hart < 32 → mode = .m ∨ mode = .hs → n < 16 →
    ways ∈ [1, 2, 4, 8] → size % (256 * ways) = 0 →
    ∃ t, exec .registerWrite s = .next t ∧ t = { s with input := .none, hdm := t.hdm } ∧
      ∀ m, Assoc.get (0, 0, 0) t.hdm m = if m = n then (base, size, ways) else Assoc.get (0, 0, 0) s.hdm m)

namespace Sys2Proof.Claims

/-- An instruction of the opcode tables, and no step of the device. -/
def isWord (i : Instr) : Prop := (encode i).isSome = true

/-- Group `h` is `g` as far as its registers, tags, tiles, predicates, stacks and fragments go. -/
def KeepsRegisters (g h : Group) : Prop :=
  h.lines = g.lines ∧ h.ltags = g.ltags ∧ h.p = g.p ∧ h.q = g.q ∧ h.tiles = g.tiles ∧ h.ztag = g.ztag ∧ h.live0 = g.live0 ∧
  h.live1 = g.live1 ∧ h.dstack = g.dstack ∧ h.wstack = g.wstack ∧ h.lbase = g.lbase ∧ h.wdepth = g.wdepth ∧ h.mode = g.mode ∧
  h.fexc = g.fexc ∧ h.fnan = g.fnan ∧ h.keymask = g.keymask ∧ h.exited = g.exited ∧ h.stop = g.stop

/-- The fields of a page-table entry (10 R215). -/
def entryBit (e n : Nat) : Bool := decide (e / 2 ^ n % 2 = 1)
def entryKey (e : Nat) : Nat := e / 2 ^ 5 % 16
def entryTier (e : Nat) : Nat := e / 2 ^ 10 % 4
def entryAddr (e : Nat) : Nat := e / 2 ^ 13 % 2 ^ 39 * 2 ^ 13

/-- TIER agrees with the range of ADDR in the physical map (07 R150, 10 R215). -/
def tierFits (e : Nat) : Prop :=
  (entryTier e = 0 ∧ inHbm (entryAddr e) = true) ∨ (entryTier e = 1 ∧ inTier2 (entryAddr e) = true) ∨
  (entryTier e = 2 ∧ inCxl (entryAddr e) = true)

/-- The address bits that an entry of a level maps (10 R214), and the place of the entry for an address in a node. -/
def reach (level : Nat) : Nat := 46 - 10 * level
def entryPlace (base level va : Nat) : Nat := base + 8 * (va / 2 ^ reach level % 1024)

/-- A node that a walk can read its entry from: in this module's memory, its home serving, the entry sound. -/
def Readable (s : State) (base level va : Nat) : Prop :=
  (inHbm base = true ∨ inTier2 base = true) ∧ s.homeWaits (entryPlace base level va) = false ∧
  s.poisoned (entryPlace base level va) = false

/-- The entry that a walk of a job may read: that of memory, or a node entry held for the level and address (10 R217). -/
def MayRead (s : State) (job level va place e : Nat) : Prop :=
  e = s.nat place 8 ∨ ∃ n ∈ s.nodes, n.job = job ∧ n.level = level ∧ n.high = va / 2 ^ reach level ∧ e = n.entry

/-- A valid entry is malformed at a level (10 R215). -/
def Malformed (level e : Nat) : Prop :=
  e / 2 ^ 60 % 16 ≠ 0 ∨ (level = 0 ∧ entryBit e 4 = true) ∨ (level = 3 ∧ entryBit e 4 = false) ∨ ¬ tierFits e ∨
  (entryBit e 4 = true ∧ (entryAddr e % 2 ^ reach level ≠ 0 ∨ entryBit e 12 = true))

/-- A walk passes the nodes listed: at each level the entry is a valid node entry naming the next. -/
def WalkPasses (s : State) (job va : Nat) : List Nat → Nat → Nat → Prop
  | [], _, _ => True
  | b :: rest, base, level =>
    let e := s.entryAt job level va (entryPlace base level va)
    Readable s base level va ∧ entryBit e 0 = true ∧ entryBit e 4 = false ∧ entryBit e 9 = false ∧ e < 2 ^ 60 ∧ tierFits e ∧
      b = entryAddr e ∧ WalkPasses s job va rest b (level + 1)

/-- The words of a few instructions, as the examples of the spec give them. -/
def writtenWords : List (Nat × Instr) := [
  (0x0D284DB9, .add64 10 4 54 7 1), (0x81190A18, .uadd 3 4 5 3 0), (0x8318FFF8, .uaddi 3 3 0x7FF 0), (0x993FFFF8, .umovi 7 0xFFFF 0),
  (0x9A3891A0, .ului 7 0x1234 0), (0x9F190A60, .umad 3 4 5 6), (0x96090A58, .usetp 1 4 5 2 3 0), (0x70106218, .atomW 4 6 8 3 0),
  (0xBB000088, .bkpt 17 0), (0xB26001DF, .call 3 0x1DF), (0xC8310638, .barArv 6 4 3 3 0), (0xF5308618, .dbell 6 2 3 3 0),
  (0x80000000, .nop 0)]

end Sys2Proof.Claims

/-- 14 R309: when the word at the program counter of the group at issue decodes to an instruction, a step is the execution of that
instruction; with nothing at issue, a step is the execution of the next step of the agenda, with its argument, but that a module in recovery takes
no step that needs its firmware (13 R304). -/
def Obligations.StepRunsDecoded : Prop :=
  (∀ s c t i rest, issuing s = some c → s.overlay c.g c.f.pc.ovl = some t → t.loading = none → c.f.pc.past = false →
    c.f.pc.off.toNat < t.size / 4 → c.f.pc.off.toNat / 16 ∉ t.poison →
    decode ((List.range 4).map (fun j => Assoc.get 0 t.bytes (4 * c.f.pc.off.toNat + j))) = .ok (i, rest) →
    step s = exec i s.ticked) ∧
  ∀ s i x rest, s.issue = none → s.agenda = (i, x) :: rest →
    (s.heldBack i = false → step s = exec i { s.ticked with agenda := rest, input := x }) ∧
    (s.heldBack i = true → step s = .next { s.ticked with agenda := rest }) ∧
    (s.heldBack i = true → s.bootState = 3)

/-- 14 R309, R316, R325, 10 R223, 03 R64: a fetch in an overlay that no slot holds takes the overlay-absent trap with the overlay in INFO; a fetch
past an overlay's last word takes the illegal-instruction trap of CAUSE 1 at that last word; a word that encodes no instruction takes the
illegal-instruction trap; a word in a poisoned sector of the instruction store takes the poison fault, with CAUSE 1 (log 155); while the slot's
load is in progress the group is not issued. -/
def Obligations.FetchTraps : Prop :=
  ∀ s c, issuing s.ticked = some c →
    let o := c.f.pc.ovl
    (s.overlay c.g o = none →
      step s = .next (groupStop s.ticked c.key c.slot c.f.pc { kind := 0x0D, info := BitVec.ofNat 64 o.toNat })) ∧
    ∀ t, s.overlay c.g o = some t →
      (t.loading.isSome = true → step s = .next c.withdrawn) ∧
      (t.loading = none → c.f.pc.past = true ∨ t.size / 4 ≤ c.f.pc.off.toNat →
        step s = .next (groupStop s.ticked c.key c.slot ⟨t.ovl, BitVec.ofNat 14 (t.size / 4 - 1), false⟩ { kind := 0x01, cause := 1 })) ∧
      (t.loading = none → c.f.pc.past = false → c.f.pc.off.toNat < t.size / 4 → c.f.pc.off.toNat / 16 ∈ t.poison →
        step s = .next (groupStop s.ticked c.key c.slot c.f.pc { kind := 0x0F, cause := 1 })) ∧
      ∀ e, t.loading = none → c.f.pc.past = false → c.f.pc.off.toNat < t.size / 4 → c.f.pc.off.toNat / 16 ∉ t.poison →
        decode ((List.range 4).map (fun j => Assoc.get 0 t.bytes (4 * c.f.pc.off.toNat + j))) = .error e →
        step s = .next (groupStop s.ticked c.key c.slot c.f.pc { kind := 0x01 })

/-- Words that the spec's examples give decode to the instructions they stand for, and a few words of 14 R316 to none. -/
def Obligations.DecodeWords : Prop :=
  (∀ x ∈ writtenWords, decodeWord x.1 = .ok x.2) ∧
  decodeWord 0 = .error .unassigned ∧ decodeWord 0x80000008 = .error .reservedField ∧ decodeWord 0x0C100040 = .error .reservedField ∧
  decodeWord 0x01C00000 = .error .illFormed

/-- 14 R309 to R313: decoding the word of a well-formed instruction gives the instruction back, in all its fields; and a word that
decodes to an instruction is its word. -/
def Obligations.DecodeEncode : Prop :=
  (∀ i w, i.wellFormed = true → encode i = some w → w < 2 ^ 32 ∧ decodeWord w = .ok i ∧ decodeTableWord 32 w = some i) ∧
  ∀ i w, w < 2 ^ 32 → decodeWord w = .ok i → i.wellFormed = true ∧ encode i = some w

/-- 10 R220, R221, R225: taking an exception. The group stops with its registers, fragments and stacks as they were; its fault record takes
the fields of the trap and the next number; WAITKIND is 6 while a page or walk fault is to be served; it gives up its issue slot; the
stop is reported in its die's ring, or waits for it there. -/
def Obligations.TakingException : Prop :=
  ∀ s k g slot pc (tr : Trap), Assoc.find k s.groups = some g → g.core < 256 → tr.cfg = none →
    let d := g.core / 128
    let t := groupStop s k slot pc tr
    ∃ h, Assoc.find k t.groups = some h ∧ (∀ j, j ≠ k → Assoc.find j t.groups = Assoc.find j s.groups) ∧
      h = { g with frec := h.frec, stop := .faulted, waitkind := h.waitkind, resident := false, wait := .none, lastPage := [] } ∧
      h.waitkind = (if (tr.kind = 0x08 ∧ tr.cause ≠ 2) ∨ tr.kind = 0x09 then 6 else 0) ∧
      h.frec = {
        faultword := (0 : BitVec 19) ++ BitVec.ofBool tr.write ++ tr.cause ++ tr.kind
        pcword := (0 : BitVec 10) ++ pc.off ++ pc.ovl
        faddr := BitVec.ofNat 64 (tr.addr % 2 ^ 56), lanes := tr.lanes, entry := tr.entry
        level := (0 : BitVec 5) ++ BitVec.ofBool slot ++ tr.level
        seq := g.frec.seq + 1, info := tr.info, ppoisv := g.frec.ppoisv, ppoisk := g.frec.ppoisk } ∧
      t = { s with
        groups := t.groups, issue := none, mem := t.mem, poison := t.poison, ctl := t.ctl, rings := t.rings, ringPhase := t.ringPhase
        hist := t.hist, out := t.out, tlb := t.tlb } ∧ (tr.kind ≠ 0x08 ∨ tr.cause ≠ 1 → t.tlb = s.tlb) ∧
      (Assoc.get [] s.rings d = [] → s.ringOpen d = true → t.out = s.out ++ [.signal d] ∧
        (t.ring d).tail = ((s.ring d).tail + 1) % (s.ring d).cap ∧ t.rings = s.rings ∧
        (∀ a, a < (s.ring d).base + (s.ring d).recordSize * (s.ring d).tail ∨
          (s.ring d).base + (s.ring d).recordSize * (s.ring d).tail + 32 ≤ a → t.byte a = s.byte a) ∧
        (∀ j < 31, t.byte ((s.ring d).base + (s.ring d).recordSize * (s.ring d).tail + j) = h.stopReport.bytes.getD j 0)) ∧
      (¬ (Assoc.get [] s.rings d = [] ∧ s.ringOpen d = true) →
        t.out = s.out ∧ t.mem = s.mem ∧ t.ctl = s.ctl ∧ Assoc.get [] t.rings d = Assoc.get [] s.rings d ++ [h.stopReport.bytes])

/-- 14 R315, R316, 02 R24, 10 R223: whatever the guard, an instruction with an ill-formed field takes the illegal-instruction trap; one that the
group's role may not issue takes the role trap, unless an illegal-instruction trap, which ranks first, holds too; a clear uniform guard lets
an instruction do nothing but move on. BRA checks its target whatever its guard, and TAGR of a tile its group's role. -/
def Obligations.WordTrapsAndGuards : Prop :=
  ∀ i s c, isWord i → issuing s = some c → c.scoreboard (shapeOf c.g i) = true → c.holdsBack i = false →
    (i.wellFormed = false → exec i s = .next (groupStop s c.key c.slot c.f.pc { kind := 0x01 })) ∧
    (c.g.role ∉ (shapeOf c.g i).roles →
      ∃ tr : Trap, (tr.kind = 0x01 ∨ tr = { kind := 0x02 }) ∧ exec i s = .next (groupStop s c.key c.slot c.f.pc tr)) ∧
    (i.wellFormed = true → c.g.role ∈ (shapeOf c.g i).roles → (∀ q o, i ≠ .bra q o) → (∀ d v st, i ≠ .tagr d v 1 st) →
      c.guardOn (shapeOf c.g i).guard = false → c.underrun (shapeOf c.g i).guard.regs = [] →
      ∃ t g', exec i s = .next t ∧ Only c s t g' ∧ Advanced c g' (shapeOf c.g i).stall ∧ Keeps c g' {})

/-- 04 R79, R85: what a lane operand code reads where no result is in flight: codes 0 to 47 a register of the window with its tag, codes 48
to 63 a uniform register in every lane, with no tag. -/
def Obligations.OperandCodes : Prop :=
  ∀ (c : Ctx) (x : BitVec 6), (∀ h ∈ c.g.hazards, h.lands ≤ c.now) →
    (x.toNat < 48 → c.val x = c.g.line (c.g.lbase + x.toNat) ∧
      c.tagOf x = some (BitVec.ofNat 5 (c.g.tagByte (c.g.lbase + x.toNat)).toNat)) ∧
    (48 ≤ x.toNat → (∀ l : Fin 32, (c.val x)[l] = c.g.kreg (x.toNat - 48)) ∧ c.tagOf x = none)

/-- 10 R214 to R217, 07 R159: a walk reads each node's entry, or one held for it, and having passed valid nodes ends at the entry of the
node it reaches: an invalid entry is a page fault, or a walk fault where NODEOUT says that the node below is out; a malformed one and a node that
stands in no memory of the module are walk faults; a migrating page or node holds the access; a leaf whose key refuses the agent is a
domain fault, one without W refuses writes, and any other gives its frame with the low bits
of the address. Recording the access sets A, and D for a write, and no other bit. -/
def Sys2Proof.Claims.Walks : Prop :=
  (∀ s agent job va write nodes base,
    s.jobLive job = true → nodes.length ≤ 3 → WalkPasses s job va nodes (s.jobRoot job / 2 ^ 13 % 2 ^ 39 * 2 ^ 13) 0 →
    base = (nodes.getLast?).getD (s.jobRoot job / 2 ^ 13 % 2 ^ 39 * 2 ^ 13) → Readable s base nodes.length va →
    let n := nodes.length
    let place := entryPlace base n va
    let e := s.entryAt job n va place
    let fault := fun (kind : BitVec 8) (cause : BitVec 4) (w : Bool) (info : Nat) =>
      Walk.fault { kind := kind, cause := cause, write := w, addr := va, level := BitVec.ofNat 2 n, info := BitVec.ofNat 64 info }
    let leaf := entryBit e 0 = true ∧ entryBit e 9 = false ∧ e < 2 ^ 60 ∧ tierFits e ∧ entryBit e 12 = false ∧
      (n = 1 ∨ n = 2 ∨ n = 3) ∧ entryBit e 4 = true ∧ entryAddr e % 2 ^ reach n = 0
    (entryBit e 0 = false → n < 3 → entryBit e 12 = true → walk s agent job va write = fault 0x09 0 write place) ∧
    (entryBit e 0 = false → n = 3 ∨ entryBit e 12 = false → walk s agent job va write = fault 0x08 0 write 0) ∧
    (leaf → ∀ cause, keyRefusal agent write (entryKey e) = some cause → walk s agent job va write = fault 0x07 cause write 0) ∧
    (leaf → keyRefusal agent write (entryKey e) = none → write = true → entryBit e 1 = false →
      walk s agent job va write = fault 0x08 1 true 0) ∧
    (leaf → keyRefusal agent write (entryKey e) = none → write = false ∨ entryBit e 1 = true →
      ∃ path, walk s agent job va write = .ok { pa := entryAddr e + va % 2 ^ reach n, pte := place, entry := e, level := n, nodes := path }) ∧
    (entryBit e 0 = true → Malformed n e → walk s agent job va write = fault 0x09 1 write place) ∧
    (entryBit e 0 = true → ¬ Malformed n e → entryBit e 9 = true → walk s agent job va write = .held place)) ∧
  (∀ s agent job va write nodes base,
    s.jobLive job = true → nodes.length ≤ 3 → WalkPasses s job va nodes (s.jobRoot job / 2 ^ 13 % 2 ^ 39 * 2 ^ 13) 0 →
    base = (nodes.getLast?).getD (s.jobRoot job / 2 ^ 13 % 2 ^ 39 * 2 ^ 13) → inHbm base = false → inTier2 base = false →
    let place := entryPlace base nodes.length va
    walk s agent job va write = .fault {
      kind := 0x09, cause := 2, write := write, addr := va, level := BitVec.ofNat 2 nodes.length, info := BitVec.ofNat 64 place
      cfg := some place }) ∧
  (∀ s job level va place, MayRead s job level va place (s.entryAt job level va place)) ∧
  ∀ (s : State) (f : Found) (write : Bool),
    let e := s.nat f.pte 8
    let t := s.setAD f write
    (∀ n < 64, entryBit (t.nat f.pte 8) n = (entryBit e n || decide (n = 2) || (write && decide (n = 3)))) ∧
    (∀ x, x < f.pte ∨ f.pte + 8 ≤ x → t.byte x = s.byte x) ∧ t = { s with mem := t.mem }

/-- 07 R159, R505, 10 R224, 11 R257: the table of domain keys. Whose accesses a key permits, and the cause with which it refuses the others: 0 for a
key that is not in the mask, 1 for the weight domain, 2 for the context domain. That M mode is refused nothing is the model's reading (log 104). -/
def Sys2Proof.Claims.KeyTable : Prop :=
  (∀ role mask write key, key < 16 →
    (keyRefusal (.group role mask) write key = none ↔
      mask.getLsbD key = true ∧ key ≠ 15 ∧ (key = 1 → write = false ∧ (role = .copy ∨ role = .matrix))) ∧
    (key = 1 → write = true ∨ role = .vector → keyRefusal (.group role mask) write key = some 1) ∧
    (key = 1 → write = false → role ≠ .vector → mask.getLsbD 1 = false → keyRefusal (.group role mask) write key = some 0)) ∧
  (∀ agent mask write key, key < 16 → agent = .endpoint mask ∨ agent = .device mask →
    (keyRefusal agent write key = none ↔ mask.getLsbD key = true ∧ key ≠ 1 ∧ key ≠ 15) ∧
    (key = 1 → keyRefusal agent write key = some 1)) ∧
  (∀ agent write, keyRefusal agent write 15 = some 2) ∧
  (∀ role mask agent write key, key < 15 → key ≠ 1 → mask.getLsbD key = false →
    agent = .group role mask ∨ agent = .endpoint mask ∨ agent = .device mask → keyRefusal agent write key = some 0) ∧
  ∀ mode mask key, key < 16 →
    (hartRefused mode mask key = false ↔
      mode = .m ∨ (key = 15 ∧ mode = .hs) ∨ (key ≠ 1 ∧ key ≠ 15 ∧ mask.getLsbD key = true))

/-- Every step keeps memory in its canonical form and the groups at one place each. -/
def Sys2Proof.Claims.StepKeeps : Prop :=
  ∀ s t, Memory.wf s.mem = true → Assoc.sorted s.groups = true → step s = .next t →
    Memory.wf t.mem = true ∧ Assoc.sorted t.groups = true

/-- What reset leaves: memory with nothing listed and nothing placed, which meet the invariant, and the control registers at the reset values of
03 R63, 10 R213, 11 R241, 12 R266 and 13 R290; no measurement has been extended. That a byte of memory that nothing has written reads
0 is the model's choice (log 2). -/
def Sys2Proof.Claims.Reset : Prop :=
  Memory.wf State.reset.mem = true ∧ Assoc.sorted State.reset.groups = true ∧ State.reset.groups = [] ∧
  State.reset.launches = [] ∧ State.reset.slots = [] ∧ State.reset.ops = [] ∧ State.reset.issue = none ∧
  (∀ d, d < 2 → (State.reset.ring d).enabled = false) ∧ (∀ a, State.reset.byte a = 0) ∧
  State.reset.ctlNat .sched 0 4 = 0x20A ∧ State.reset.ctlNat .io 0x1C 4 = 10000 ∧
  (∀ p < 8, State.reset.ctlNat .io (0x30A + 0x20 * p) 1 = 20) ∧
  State.reset.ctlNat .fabric 4 4 = 0x00FAC688 ∧ State.reset.ctlNat .fabric 8 4 = 0xFF ∧ State.reset.ctlNat .fabric 0xC 4 = 0x10000 ∧
  (∀ d < 2, State.reset.ctlNat .memctl (0x400 + 4 * d) 4 = 0x200) ∧ (∀ o < 0x80, State.reset.ctlByte .trans o = 0) ∧
  State.reset.m = 0 ∧ State.reset.mlog = []

/-- Every instruction and every step of the device has a meaning: no step is refused, and a step faults only where the agenda names an instruction
of the tables with no group at issue. -/
def Obligations.StepNeverRefuses : Prop :=
  (∀ s r, step s ≠ .refused r) ∧
  ∀ s f, step s = .fault f → f = .noIssuer ∧ s.issue = none ∧ ∃ i x rest, s.agenda = (i, x) :: rest ∧ isWord i

/-- 02 R18, 09 R196: an instruction that a group issues changes the registers, the fragments and the stop state of no other group; a uniform register
of another group takes a value only where that group waits on an object. Of a group that
CANCEL stops, whose accesses that wait for tickets are given up (12 R284), only the waits are stated. -/
def Obligations.OtherGroupsKept : Prop :=
  ∀ i s c t k g, isWord i → issuing s = some c → Assoc.sorted s.groups = true → exec i s = .next t → k ≠ c.key →
    Assoc.find k s.groups = some g →
    ∃ h, Assoc.find k t.groups = some h ∧ (g.wait = .none → h.wait = .none) ∧
      ((∀ d a l q st, i ≠ .cancel d a l q st) ∨ h.cancelled = false → KeepsRegisters g h ∧ (g.wait = .none → h.k = g.k))

/-! ### Statements of several parts -/

/-- Lane integer arithmetic writes the results of its tables, and nothing else. -/
def Obligations.LaneArithmetic : Prop :=
  Claims.LaneIntegerResults ∧ Claims.LaneSaturation ∧ Claims.LaneAddresses ∧ Claims.LaneDotProducts

/-- Lane logic and shifts write their results, and nothing else. -/
def Obligations.LaneLogicAndShifts : Prop :=
  Claims.LaneLogic ∧ Claims.LaneShifts

/-- Bit counts, bit fields, moves, selections, retagging and comparisons of lanes. -/
def Obligations.LaneBitsMovesTests : Prop :=
  Claims.LaneBits ∧ Claims.LaneMoves ∧ Claims.LaneComparisons

/-- The uniform integer instructions write their results, and nothing else. -/
def Obligations.UniformResultsAndFrames : Prop :=
  Claims.UniformResults ∧ Claims.UniformImmediatesAndFields ∧ Claims.UniformFromLanes

/-- SRD reads and SWR writes the special registers. -/
def Obligations.SpecialRegisters : Prop :=
  Claims.SpecialRegisterRead ∧ Claims.SpecialRegisterWrite

/-- Lane float arithmetic, signs, functions and tests. -/
def Obligations.FloatResults : Prop :=
  Claims.FloatArithmetic ∧ Claims.FloatSigns ∧ Claims.FloatFunctions ∧ Claims.FloatTests

/-- Float dot products and conversions between formats. -/
def Obligations.FloatDotsAndConversions : Prop :=
  Claims.FloatDotProducts ∧ Claims.Conversions

/-- Rounding is to a nearest code, and keeps a value that the format holds. -/
def Obligations.Rounding : Prop :=
  Claims.RoundToNearest ∧ Claims.RoundingKeepsExactValues

/-- Lane loads and stores issue their accesses at the places their lanes name. -/
def Obligations.LaneAccessesIssue : Prop :=
  Claims.LaneLoadsIssue ∧ Claims.LaneStoresIssue

/-- Atomics, compare-and-swap and uniform accesses issue their accesses. -/
def Obligations.AtomicAndUniformAccessesIssue : Prop :=
  Claims.LaneAtomicsIssue ∧ Claims.UniformAccessesIssue

/-- A store writes its bytes and no other; a load returns the bytes memory held. -/
def Obligations.LoadsAndStoresTakeEffect : Prop :=
  Claims.StoreTakesEffect ∧ Claims.LoadReadsMemory ∧ Claims.LoadDataReturns

/-- A read-modify-write is one access: old value out, new value in. -/
def Obligations.AtomicsTakeEffect : Prop :=
  Claims.AtomicTakesEffect ∧ Claims.AtomicOperations

/-- Misaligned lanes, window instructions and BKPT trap as stated. -/
def Obligations.SynchronousTraps : Prop :=
  Claims.MisalignedLanesTrap ∧ Claims.WindowTraps ∧ Claims.BreakpointTraps

/-- NOP, PREF, YIELD, BRA, BRX and BRP: targets, splits and frames. -/
def Obligations.BranchesAndSplits : Prop :=
  Claims.NopPrefYield ∧ Claims.Branches ∧ Claims.PredicateBranch

/-- CALL, CALLX, GROW slide the window up; RET and SHRINK slide it down. -/
def Obligations.WindowInstructions : Prop :=
  Claims.CallsAndGrow ∧ Claims.ReturnsAndShrink

/-- BAR: the translation of its object, initialisation, arrivals, waits and tests. -/
def Obligations.BarrierInstructions : Prop :=
  Claims.RecordedTranslations ∧ Claims.BarrierInit ∧ Claims.BarrierArrivals ∧ Claims.BarrierWaits

/-- WAITC, FENCE, FENCER, CCTL and CCWAIT. -/
def Obligations.CountersFencesAndWaits : Prop :=
  Claims.CountersAndFences ∧ Claims.CounterWait

/-- DBELL and its mark: refusals, the bitmap, the tail. -/
def Obligations.Doorbells : Prop :=
  Claims.Doorbell ∧ Claims.DoorbellMarks

/-- MCAS, ALLOC and FREE under their locks. -/
def Obligations.LockedOperationsTakeEffect : Prop :=
  Claims.McasComparesAndSwaps ∧ Claims.AllocTakesBlock ∧ Claims.FreeReturnsBlock

/-- LAUNCH queues its record; CANCEL cancels a level. -/
def Obligations.LaunchAndCancel : Prop :=
  Claims.LaunchQueuesRecord ∧ Claims.CancelLevel

/-- The copy instructions and OVLD issue. -/
def Obligations.CopyAndOverlayCommands : Prop :=
  Claims.CopyCommands ∧ Claims.OverlayLoad

/-- What the copy engine does with a command. -/
def Obligations.CopyEngine : Prop :=
  Claims.CopyAccesses ∧ Claims.CopyMovesBytes ∧ Claims.CopyCompletes ∧ Claims.CopyrAcquires

/-- Micro-tiles and completions of matrix operations. -/
def Obligations.MatrixWork : Prop :=
  Claims.MicroTiles ∧ Claims.MatrixCompletes

/-- The geometric instructions issue, or refuse non-finite coordinates. -/
def Obligations.GeometricInstructions : Prop :=
  Claims.GeometricInstructions ∧ Claims.GeometricOperandFault

/-- What decides a lane of a geometric instruction, and the steps of the EPU. -/
def Obligations.GeometricDecisions : Prop :=
  Claims.GeometricDecision ∧ Claims.EpuSteps

/-- Launches are admitted, units placed, groups and units ended. -/
def Obligations.WorkAdmittedPlacedEnded : Prop :=
  Claims.LaunchesAdmitted ∧ Claims.Placement ∧ Claims.GroupsAndUnitsEnd

/-- Issue cycles, swaps, register lines and matrix unit modes. -/
def Obligations.SchedulingCycles : Prop :=
  Claims.IssueCycles ∧ Claims.SwapAndCaches ∧ Claims.MatrixUnitModes

/-- Returns from an exception: REISSUE, SKIP, RUN, REPLAY; STOP and LOSE. -/
def Obligations.GroupCommandsAndReplay : Prop :=
  Claims.GroupCommands ∧ Claims.LoseAndReplay

/-- Remote requests and their replies. -/
def Obligations.RemoteTransactions : Prop :=
  Claims.RemoteRequests ∧ Claims.RemoteReplies

/-- Tickets, markers, planes and members of the pod. -/
def Obligations.FabricTicketsAndPlanes : Prop :=
  Claims.TicketsAndMarkers ∧ Claims.PlanesAndMembers

/-- Arrivals, doorbell queues and NTB peers. -/
def Obligations.ArrivalsQueuesAndPeers : Prop :=
  Claims.Arrivals ∧ Claims.QueuesAndPeers

/-- Endpoint requests, invalidations and migrations. -/
def Obligations.EndpointsAndInvalidations : Prop :=
  Claims.EndpointRequests ∧ Claims.InvalidationsAndMigrations

/-- Weights, rates, power, measurement and pod boot. -/
def Obligations.BootAndWeights : Prop :=
  Claims.WeightsAndRates ∧ Claims.PowerAndMeasurement ∧ Claims.PodBoot

/-- A page-table walk and the bits it records, and the keys that permit an access. -/
def Obligations.TranslationWalks : Prop :=
  Claims.Walks ∧ Claims.KeyTable

/-- Every step keeps memory and the group table in canonical form. -/
def Obligations.StepKeepsInvariant : Prop :=
  Claims.StepKeeps

/-- What reset leaves. -/
def Obligations.ResetState : Prop :=
  Claims.Reset
end

