-- ==== Sys2Proof/Laws/Table.lean ====
section
/-! SUPPORT. The laws of sparse tables: reading after storing, and the canonical form. -/

namespace Sys2Proof.Machine.Assoc

variable {β : Type}

@[simp] theorem find_nil (k : Nat) : find (β := β) k [] = none := rfl

/-- What stands at a key after a store there. -/
@[simp] theorem find_put_same (k : Nat) (v : β) (t : List (Nat × β)) : find k (put k v t) = some v := by
  induction t with
  | nil => simp [put, find]
  | cons e t ih =>
    obtain ⟨j, w⟩ := e
    by_cases h : k = j
    · simp [put, find, h]
    · by_cases h' : k < j
      · simp [put, find, h, h']
      · simp [put, find, h, h', ih]

/-- A store leaves every other key alone. -/
theorem find_put_other {k j : Nat} (h : j ≠ k) (v : β) (t : List (Nat × β)) : find j (put k v t) = find j t := by
  induction t with
  | nil => simp [put, find, h]
  | cons e t ih =>
    obtain ⟨i, w⟩ := e
    by_cases h1 : k = i
    · subst h1; simp [put, find, h]
    · by_cases h2 : k < i
      · simp [put, find, h, h1, h2]
      · by_cases h3 : j = i
        · subst h3; simp [put, find, h1, h2]
        · simp [put, find, h1, h2, h3, ih]

/-- Nothing stands at a key that has been removed. -/
@[simp] theorem find_del_same (k : Nat) (t : List (Nat × β)) : find k (del k t) = none := by
  induction t with
  | nil => rfl
  | cons e t ih =>
    obtain ⟨j, w⟩ := e
    by_cases h : j = k
    · simpa [del, h] using ih
    · have h' : k ≠ j := fun e => h e.symm
      simpa [del, find, h, h'] using ih

/-- A removal leaves every other key alone. -/
theorem find_del_other {k j : Nat} (h : j ≠ k) (t : List (Nat × β)) : find j (del k t) = find j t := by
  induction t with
  | nil => rfl
  | cons e t ih =>
    obtain ⟨i, w⟩ := e
    by_cases h1 : i = k
    · subst h1; simpa [del, find, h] using ih
    · by_cases h2 : j = i
      · subst h2; simp [del, find, h]
      · simpa [del, find, h1, h2] using ih

/-- A table with a default reads back what was stored. -/
@[simp] theorem get_set_same [DecidableEq β] (d : β) (t : List (Nat × β)) (k : Nat) (v : β) : get d (set d t k v) k = v := by
  by_cases h : v = d <;> simp [get, set, h]

/-- A store into a table with a default leaves every other key alone. -/
theorem get_set_other [DecidableEq β] (d : β) (t : List (Nat × β)) {k j : Nat} (h : j ≠ k) (v : β) :
    get d (set d t k v) j = get d t j := by
  by_cases h' : v = d
  · simp [get, set, h', find_del_other h]
  · simp [get, set, h', find_put_other h]

/-- One law for both cases. -/
theorem get_set [DecidableEq β] (d : β) (t : List (Nat × β)) (k j : Nat) (v : β) :
    get d (set d t k v) j = if j = k then v else get d t j := by
  by_cases h : j = k
  · subst h; simp
  · simp [h, get_set_other d t h v]

/-! ### The canonical form -/

theorem sortedFrom_mono {lo lo' : Nat} (h : lo' ≤ lo) (t : List (Nat × β)) (s : sortedFrom lo t = true) :
    sortedFrom lo' t = true := by
  cases t with
  | nil => rfl
  | cons e t =>
    obtain ⟨j, w⟩ := e
    simp only [sortedFrom, Bool.and_eq_true, decide_eq_true_eq] at s ⊢
    exact ⟨Nat.le_trans h s.1, s.2⟩

theorem sortedFrom_put (k : Nat) (v : β) : ∀ (t : List (Nat × β)) (lo : Nat), lo ≤ k → sortedFrom lo t = true →
    sortedFrom lo (put k v t) = true
  | [], lo, hk, _ => by simp [put, sortedFrom, hk]
  | (j, w) :: t, lo, hk, s => by
    simp only [sortedFrom, Bool.and_eq_true, decide_eq_true_eq] at s
    by_cases h1 : k = j
    · subst h1; simp [put, sortedFrom, hk, s.2]
    · by_cases h2 : k < j
      · simp [put, sortedFrom, h1, h2, hk, s.2]
      · have := sortedFrom_put k v t (j + 1) (by omega) s.2
        simp [put, sortedFrom, h1, h2, s.1, this]

theorem sortedFrom_del (k : Nat) : ∀ (t : List (Nat × β)) (lo : Nat), sortedFrom lo t = true → sortedFrom lo (del k t) = true
  | [], _, _ => rfl
  | (j, w) :: t, lo, s => by
    simp only [sortedFrom, Bool.and_eq_true, decide_eq_true_eq] at s
    have ih := sortedFrom_del k t (j + 1) s.2
    by_cases h : j = k
    · subst h
      have e : del j ((j, w) :: t) = del j t := by simp [del]
      rw [e]
      exact sortedFrom_mono (by omega) _ ih
    · have e : del k ((j, w) :: t) = (j, w) :: del k t := by simp [del, h]
      rw [e]
      simp [sortedFrom, s.1, ih]

theorem mem_put {k : Nat} {v : β} {t : List (Nat × β)} {e : Nat × β} (h : e ∈ put k v t) : e = (k, v) ∨ e ∈ t := by
  induction t with
  | nil => simpa [put] using h
  | cons x t ih =>
    obtain ⟨j, w⟩ := x
    by_cases h1 : k = j
    · simp [put, h1] at h
      rcases h with h | h
      · left; rw [h, h1]
      · right; simp [h]
    · by_cases h2 : k < j
      · simp [put, h1, h2] at h
        rcases h with h | h | h
        · exact Or.inl h
        · right; simp [h]
        · right; simp [h]
      · simp [put, h1, h2] at h
        rcases h with h | h
        · right; simp [h]
        · rcases ih h with h | h
          · exact Or.inl h
          · right; simp [h]

/-- Storing keeps the canonical form. -/
theorem wf_set [DecidableEq β] (d : β) (t : List (Nat × β)) (k : Nat) (v : β) (h : wf d t = true) : wf d (set d t k v) = true := by
  simp only [wf, Bool.and_eq_true, List.all_eq_true, decide_eq_true_eq] at h ⊢
  by_cases hv : v = d
  · simp only [set, hv, if_true]
    refine ⟨sortedFrom_del k t 0 h.1, fun e he => h.2 e ?_⟩
    exact (List.mem_filter.mp he).1
  · simp only [set, hv, if_false]
    refine ⟨sortedFrom_put k v t 0 (Nat.zero_le _) h.1, fun e he => ?_⟩
    rcases mem_put he with he | he
    · simp [he, hv]
    · exact h.2 e he

end Sys2Proof.Machine.Assoc
end

