-- ==== Sys2Proof/Laws/Memory.lean ====
section
/-! SUPPORT. The laws of memory: reading after storing, little-endian numbers, and the canonical form, which every operation that
stores keeps. -/

namespace Sys2Proof.Machine

/-! ### Reading after storing -/

@[simp] theorem memByte_memSet_same (m : List Host.Cell) (a : Nat) (b : Byte) : memByte (memSet m a b) a = b := by
  simp [memByte, memSet]

theorem memByte_memSet (m : List Host.Cell) (a x : Nat) (b : Byte) :
    memByte (memSet m a b) x = if x = a then b else memByte m x := by
  simp [memByte, memSet, Assoc.get_set]

/-- A store leaves the bytes outside its cells alone. -/
theorem memByte_memStore_other (cells : List Host.Cell) (m : List Host.Cell) (x : Nat) (h : ∀ c ∈ cells, c.1 ≠ x) :
    memByte (memStore m cells) x = memByte m x := by
  induction cells generalizing m with
  | nil => rfl
  | cons c t ih =>
    obtain ⟨a, b⟩ := c
    have h1 : x ≠ a := fun e => h (a, b) (by simp) e.symm
    rw [memStore, ih _ (fun c hc => h c (by simp [hc])), memByte_memSet, if_neg h1]

/-- A store whose cells have distinct addresses reads back. -/
theorem memByte_memStore_mem (cells : List Host.Cell) (m : List Host.Cell) (a : Nat) (b : Byte)
    (d : (cells.map Prod.fst).Nodup) (h : (a, b) ∈ cells) : memByte (memStore m cells) a = b := by
  induction cells generalizing m with
  | nil => cases h
  | cons c t ih =>
    obtain ⟨x, y⟩ := c
    simp only [List.map_cons, List.nodup_cons] at d
    rcases List.mem_cons.mp h with h | h
    · cases h
      rw [memStore, memByte_memStore_other, memByte_memSet_same]
      intro c hc e
      exact d.1 (List.mem_map.mpr ⟨c, hc, e⟩)
    · exact ih _ d.2 h

/-! ### Little-endian numbers -/

@[simp] theorem leBytes_length (n x : Nat) : (leBytes n x).length = n := by
  induction n generalizing x with
  | zero => rfl
  | succ n ih => simp [leBytes, ih]

/-- The bytes of a number give back its low part. -/
theorem leNat_leBytes (n x : Nat) : leNat (leBytes n x) = x % 256 ^ n := by
  induction n generalizing x with
  | zero => simp [leBytes, leNat, Nat.mod_one]
  | succ n ih =>
    have e : (2 : Nat) ^ 8 = 256 := rfl
    rw [leBytes, leNat, ih, BitVec.toNat_ofNat, e, pow_succ', Nat.mod_mul (a := 256) (b := 256 ^ n)]

theorem cellsOf_fst (a n x : Nat) : (cellsOf a n x).map Prod.fst = (List.range n).map (fun i => a + i) := by
  apply List.ext_getElem
  · simp [cellsOf]
  · intro i h1 h2; simp [cellsOf]

/-- The cells of a number have distinct addresses. -/
theorem cellsOf_nodup (a n x : Nat) : ((cellsOf a n x).map Prod.fst).Nodup := by
  rw [cellsOf_fst]
  exact List.Nodup.map (fun i j h => Nat.add_left_cancel h) List.nodup_range

/-- A number stored reads back at its address. -/
theorem memBytes_cellsOf (m : List Host.Cell) (a n x : Nat) : memBytes (memStore m (cellsOf a n x)) a n = leBytes n x := by
  apply List.ext_getElem
  · simp [memBytes]
  · intro i h1 h2
    simp only [memBytes, List.getElem_map, List.getElem_range]
    apply memByte_memStore_mem _ _ _ _ (cellsOf_nodup a n x)
    simp only [cellsOf]
    have hi : i < (List.mapIdx (fun i b => (a + i, b)) (leBytes n x)).length := by simpa using h2
    have := List.getElem_mem hi
    simpa using this

theorem memNat_cellsOf (m : List Host.Cell) (a n x : Nat) : memNat (memStore m (cellsOf a n x)) a n = x % 256 ^ n := by
  rw [memNat, memBytes_cellsOf, leNat_leBytes]

/-- A number stored leaves the bytes outside it alone. -/
theorem memByte_cellsOf_other (m : List Host.Cell) (a n x y : Nat) (h : y < a ∨ a + n ≤ y) :
    memByte (memStore m (cellsOf a n x)) y = memByte m y := by
  apply memByte_memStore_other
  intro c hc e
  have hm : c.1 ∈ (cellsOf a n x).map Prod.fst := List.mem_map.mpr ⟨c, hc, rfl⟩
  rw [cellsOf_fst, List.mem_map] at hm
  obtain ⟨i, hi, he⟩ := hm
  rw [List.mem_range] at hi
  omega

/-! ### The canonical form -/

theorem Memory.wf_nil : Memory.wf [] = true := rfl

theorem Memory.wf_memSet (m : List Host.Cell) (a : Nat) (b : Byte) (h : Memory.wf m = true) : Memory.wf (memSet m a b) = true :=
  Assoc.wf_set 0 m a b h

theorem Memory.wf_memStore (cells : List Host.Cell) (m : List Host.Cell) (h : Memory.wf m = true) :
    Memory.wf (memStore m cells) = true := by
  induction cells generalizing m with
  | nil => exact h
  | cons c t ih => exact ih _ (Memory.wf_memSet m c.1 c.2 h)

end Sys2Proof.Machine
end

