-- ==== Sys2Proof/Laws/State.lean ====
section
/-! SUPPORT. What each field holds after each update of the state and of a group: one lemma per field and update, true by definition. -/

namespace Sys2Proof.Machine

variable (s : State)

/-! ### setGroup -/

@[simp] theorem setGroup_agenda (k : Nat) (g : Group) : (s.setGroup k g).agenda = s.agenda := rfl
@[simp] theorem setGroup_input (k : Nat) (g : Group) : (s.setGroup k g).input = s.input := rfl
@[simp] theorem setGroup_fresh (k : Nat) (g : Group) : (s.setGroup k g).fresh = s.fresh := rfl
@[simp] theorem setGroup_issue (k : Nat) (g : Group) : (s.setGroup k g).issue = s.issue := rfl
@[simp] theorem setGroup_clock (k : Nat) (g : Group) : (s.setGroup k g).clock = s.clock := rfl
@[simp] theorem setGroup_timers (k : Nat) (g : Group) : (s.setGroup k g).timers = s.timers := rfl
@[simp] theorem setGroup_nextId (k : Nat) (g : Group) : (s.setGroup k g).nextId = s.nextId := rfl
@[simp] theorem setGroup_mem (k : Nat) (g : Group) : (s.setGroup k g).mem = s.mem := rfl
@[simp] theorem setGroup_tick (k : Nat) (g : Group) : (s.setGroup k g).tick = s.tick := rfl
@[simp] theorem setGroup_hist (k : Nat) (g : Group) : (s.setGroup k g).hist = s.hist := rfl
@[simp] theorem setGroup_base (k : Nat) (g : Group) : (s.setGroup k g).base = s.base := rfl
@[simp] theorem setGroup_msgs (k : Nat) (g : Group) : (s.setGroup k g).msgs = s.msgs := rfl
@[simp] theorem setGroup_cleared (k : Nat) (g : Group) : (s.setGroup k g).cleared = s.cleared := rfl
@[simp] theorem setGroup_waiters (k : Nat) (g : Group) : (s.setGroup k g).waiters = s.waiters := rfl
@[simp] theorem setGroup_portRegs (k : Nat) (g : Group) : (s.setGroup k g).portRegs = s.portRegs := rfl
@[simp] theorem setGroup_poison (k : Nat) (g : Group) : (s.setGroup k g).poison = s.poison := rfl
@[simp] theorem setGroup_marks (k : Nat) (g : Group) : (s.setGroup k g).marks = s.marks := rfl
@[simp] theorem setGroup_groups (k : Nat) (g : Group) : (s.setGroup k g).groups = Assoc.put k g s.groups := rfl
@[simp] theorem setGroup_units (k : Nat) (g : Group) : (s.setGroup k g).units = s.units := rfl
@[simp] theorem setGroup_launches (k : Nat) (g : Group) : (s.setGroup k g).launches = s.launches := rfl
@[simp] theorem setGroup_parts (k : Nat) (g : Group) : (s.setGroup k g).parts = s.parts := rfl
@[simp] theorem setGroup_slots (k : Nat) (g : Group) : (s.setGroup k g).slots = s.slots := rfl
@[simp] theorem setGroup_ops (k : Nat) (g : Group) : (s.setGroup k g).ops = s.ops := rfl
@[simp] theorem setGroup_ctl (k : Nat) (g : Group) : (s.setGroup k g).ctl = s.ctl := rfl
@[simp] theorem setGroup_rings (k : Nat) (g : Group) : (s.setGroup k g).rings = s.rings := rfl
@[simp] theorem setGroup_ringPhase (k : Nat) (g : Group) : (s.setGroup k g).ringPhase = s.ringPhase := rfl
@[simp] theorem setGroup_tlb (k : Nat) (g : Group) : (s.setGroup k g).tlb = s.tlb := rfl
@[simp] theorem setGroup_nodes (k : Nat) (g : Group) : (s.setGroup k g).nodes = s.nodes := rfl
@[simp] theorem setGroup_hdm (k : Nat) (g : Group) : (s.setGroup k g).hdm = s.hdm := rfl
@[simp] theorem setGroup_harts (k : Nat) (g : Group) : (s.setGroup k g).harts = s.harts := rfl
@[simp] theorem setGroup_copies (k : Nat) (g : Group) : (s.setGroup k g).copies = s.copies := rfl
@[simp] theorem setGroup_services (k : Nat) (g : Group) : (s.setGroup k g).services = s.services := rfl
@[simp] theorem setGroup_devq (k : Nat) (g : Group) : (s.setGroup k g).devq = s.devq := rfl
@[simp] theorem setGroup_locks (k : Nat) (g : Group) : (s.setGroup k g).locks = s.locks := rfl
@[simp] theorem setGroup_walked (k : Nat) (g : Group) : (s.setGroup k g).walked = s.walked := rfl
@[simp] theorem setGroup_objs (k : Nat) (g : Group) : (s.setGroup k g).objs = s.objs := rfl
@[simp] theorem setGroup_touched (k : Nat) (g : Group) : (s.setGroup k g).touched = s.touched := rfl
@[simp] theorem setGroup_finished (k : Nat) (g : Group) : (s.setGroup k g).finished = s.finished := rfl
@[simp] theorem setGroup_cancels (k : Nat) (g : Group) : (s.setGroup k g).cancels = s.cancels := rfl
@[simp] theorem setGroup_ranCopy (k : Nat) (g : Group) : (s.setGroup k g).ranCopy = s.ranCopy := rfl
@[simp] theorem setGroup_wakes (k : Nat) (g : Group) : (s.setGroup k g).wakes = s.wakes := rfl
@[simp] theorem setGroup_bells (k : Nat) (g : Group) : (s.setGroup k g).bells = s.bells := rfl
@[simp] theorem setGroup_arrivals (k : Nat) (g : Group) : (s.setGroup k g).arrivals = s.arrivals := rfl
@[simp] theorem setGroup_arrcmd (k : Nat) (g : Group) : (s.setGroup k g).arrcmd = s.arrcmd := rfl
@[simp] theorem setGroup_contained (k : Nat) (g : Group) : (s.setGroup k g).contained = s.contained := rfl
@[simp] theorem setGroup_links (k : Nat) (g : Group) : (s.setGroup k g).links = s.links := rfl
@[simp] theorem setGroup_aer (k : Nat) (g : Group) : (s.setGroup k g).aer = s.aer := rfl
@[simp] theorem setGroup_mailbox (k : Nat) (g : Group) : (s.setGroup k g).mailbox = s.mailbox := rfl
@[simp] theorem setGroup_invalidation (k : Nat) (g : Group) : (s.setGroup k g).invalidation = s.invalidation := rfl
@[simp] theorem setGroup_migration (k : Nat) (g : Group) : (s.setGroup k g).migration = s.migration := rfl
@[simp] theorem setGroup_endpoints (k : Nat) (g : Group) : (s.setGroup k g).endpoints = s.endpoints := rfl
@[simp] theorem setGroup_hartq (k : Nat) (g : Group) : (s.setGroup k g).hartq = s.hartq := rfl
@[simp] theorem setGroup_flight (k : Nat) (g : Group) : (s.setGroup k g).flight = s.flight := rfl
@[simp] theorem setGroup_linkSeq (k : Nat) (g : Group) : (s.setGroup k g).linkSeq = s.linkSeq := rfl
@[simp] theorem setGroup_mseq (k : Nat) (g : Group) : (s.setGroup k g).mseq = s.mseq := rfl
@[simp] theorem setGroup_known (k : Nat) (g : Group) : (s.setGroup k g).known = s.known := rfl
@[simp] theorem setGroup_rtkt (k : Nat) (g : Group) : (s.setGroup k g).rtkt = s.rtkt := rfl
@[simp] theorem setGroup_heldTickets (k : Nat) (g : Group) : (s.setGroup k g).heldTickets = s.heldTickets := rfl
@[simp] theorem setGroup_planeNow (k : Nat) (g : Group) : (s.setGroup k g).planeNow = s.planeNow := rfl
@[simp] theorem setGroup_escape (k : Nat) (g : Group) : (s.setGroup k g).escape = s.escape := rfl
@[simp] theorem setGroup_early (k : Nat) (g : Group) : (s.setGroup k g).early = s.early := rfl
@[simp] theorem setGroup_tickets (k : Nat) (g : Group) : (s.setGroup k g).tickets = s.tickets := rfl
@[simp] theorem setGroup_waiting (k : Nat) (g : Group) : (s.setGroup k g).waiting = s.waiting := rfl
@[simp] theorem setGroup_refused (k : Nat) (g : Group) : (s.setGroup k g).refused = s.refused := rfl
@[simp] theorem setGroup_performed (k : Nat) (g : Group) : (s.setGroup k g).performed = s.performed := rfl
@[simp] theorem setGroup_mcnt (k : Nat) (g : Group) : (s.setGroup k g).mcnt = s.mcnt := rfl
@[simp] theorem setGroup_flagged (k : Nat) (g : Group) : (s.setGroup k g).flagged = s.flagged := rfl
@[simp] theorem setGroup_reports (k : Nat) (g : Group) : (s.setGroup k g).reports = s.reports := rfl
@[simp] theorem setGroup_firmware (k : Nat) (g : Group) : (s.setGroup k g).firmware = s.firmware := rfl
@[simp] theorem setGroup_weights (k : Nat) (g : Group) : (s.setGroup k g).weights = s.weights := rfl
@[simp] theorem setGroup_lastSeqno (k : Nat) (g : Group) : (s.setGroup k g).lastSeqno = s.lastSeqno := rfl
@[simp] theorem setGroup_install (k : Nat) (g : Group) : (s.setGroup k g).install = s.install := rfl
@[simp] theorem setGroup_mlog (k : Nat) (g : Group) : (s.setGroup k g).mlog = s.mlog := rfl
@[simp] theorem setGroup_m (k : Nat) (g : Group) : (s.setGroup k g).m = s.m := rfl
@[simp] theorem setGroup_pod (k : Nat) (g : Group) : (s.setGroup k g).pod = s.pod := rfl
@[simp] theorem setGroup_spares (k : Nat) (g : Group) : (s.setGroup k g).spares = s.spares := rfl
@[simp] theorem setGroup_draining (k : Nat) (g : Group) : (s.setGroup k g).draining = s.draining := rfl
@[simp] theorem setGroup_retiredCores (k : Nat) (g : Group) : (s.setGroup k g).retiredCores = s.retiredCores := rfl
@[simp] theorem setGroup_out (k : Nat) (g : Group) : (s.setGroup k g).out = s.out := rfl

/-! ### mapGroup -/

@[simp] theorem mapGroup_agenda (k : Nat) (f : Group → Group) : (s.mapGroup k f).agenda = s.agenda := rfl
@[simp] theorem mapGroup_input (k : Nat) (f : Group → Group) : (s.mapGroup k f).input = s.input := rfl
@[simp] theorem mapGroup_fresh (k : Nat) (f : Group → Group) : (s.mapGroup k f).fresh = s.fresh := rfl
@[simp] theorem mapGroup_issue (k : Nat) (f : Group → Group) : (s.mapGroup k f).issue = s.issue := rfl
@[simp] theorem mapGroup_clock (k : Nat) (f : Group → Group) : (s.mapGroup k f).clock = s.clock := rfl
@[simp] theorem mapGroup_timers (k : Nat) (f : Group → Group) : (s.mapGroup k f).timers = s.timers := rfl
@[simp] theorem mapGroup_nextId (k : Nat) (f : Group → Group) : (s.mapGroup k f).nextId = s.nextId := rfl
@[simp] theorem mapGroup_mem (k : Nat) (f : Group → Group) : (s.mapGroup k f).mem = s.mem := rfl
@[simp] theorem mapGroup_tick (k : Nat) (f : Group → Group) : (s.mapGroup k f).tick = s.tick := rfl
@[simp] theorem mapGroup_hist (k : Nat) (f : Group → Group) : (s.mapGroup k f).hist = s.hist := rfl
@[simp] theorem mapGroup_base (k : Nat) (f : Group → Group) : (s.mapGroup k f).base = s.base := rfl
@[simp] theorem mapGroup_msgs (k : Nat) (f : Group → Group) : (s.mapGroup k f).msgs = s.msgs := rfl
@[simp] theorem mapGroup_cleared (k : Nat) (f : Group → Group) : (s.mapGroup k f).cleared = s.cleared := rfl
@[simp] theorem mapGroup_waiters (k : Nat) (f : Group → Group) : (s.mapGroup k f).waiters = s.waiters := rfl
@[simp] theorem mapGroup_portRegs (k : Nat) (f : Group → Group) : (s.mapGroup k f).portRegs = s.portRegs := rfl
@[simp] theorem mapGroup_poison (k : Nat) (f : Group → Group) : (s.mapGroup k f).poison = s.poison := rfl
@[simp] theorem mapGroup_marks (k : Nat) (f : Group → Group) : (s.mapGroup k f).marks = s.marks := rfl
@[simp] theorem mapGroup_groups (k : Nat) (f : Group → Group) : (s.mapGroup k f).groups = Assoc.modify k f s.groups := rfl
@[simp] theorem mapGroup_units (k : Nat) (f : Group → Group) : (s.mapGroup k f).units = s.units := rfl
@[simp] theorem mapGroup_launches (k : Nat) (f : Group → Group) : (s.mapGroup k f).launches = s.launches := rfl
@[simp] theorem mapGroup_parts (k : Nat) (f : Group → Group) : (s.mapGroup k f).parts = s.parts := rfl
@[simp] theorem mapGroup_slots (k : Nat) (f : Group → Group) : (s.mapGroup k f).slots = s.slots := rfl
@[simp] theorem mapGroup_ops (k : Nat) (f : Group → Group) : (s.mapGroup k f).ops = s.ops := rfl
@[simp] theorem mapGroup_ctl (k : Nat) (f : Group → Group) : (s.mapGroup k f).ctl = s.ctl := rfl
@[simp] theorem mapGroup_rings (k : Nat) (f : Group → Group) : (s.mapGroup k f).rings = s.rings := rfl
@[simp] theorem mapGroup_ringPhase (k : Nat) (f : Group → Group) : (s.mapGroup k f).ringPhase = s.ringPhase := rfl
@[simp] theorem mapGroup_tlb (k : Nat) (f : Group → Group) : (s.mapGroup k f).tlb = s.tlb := rfl
@[simp] theorem mapGroup_nodes (k : Nat) (f : Group → Group) : (s.mapGroup k f).nodes = s.nodes := rfl
@[simp] theorem mapGroup_hdm (k : Nat) (f : Group → Group) : (s.mapGroup k f).hdm = s.hdm := rfl
@[simp] theorem mapGroup_harts (k : Nat) (f : Group → Group) : (s.mapGroup k f).harts = s.harts := rfl
@[simp] theorem mapGroup_copies (k : Nat) (f : Group → Group) : (s.mapGroup k f).copies = s.copies := rfl
@[simp] theorem mapGroup_services (k : Nat) (f : Group → Group) : (s.mapGroup k f).services = s.services := rfl
@[simp] theorem mapGroup_devq (k : Nat) (f : Group → Group) : (s.mapGroup k f).devq = s.devq := rfl
@[simp] theorem mapGroup_locks (k : Nat) (f : Group → Group) : (s.mapGroup k f).locks = s.locks := rfl
@[simp] theorem mapGroup_walked (k : Nat) (f : Group → Group) : (s.mapGroup k f).walked = s.walked := rfl
@[simp] theorem mapGroup_objs (k : Nat) (f : Group → Group) : (s.mapGroup k f).objs = s.objs := rfl
@[simp] theorem mapGroup_touched (k : Nat) (f : Group → Group) : (s.mapGroup k f).touched = s.touched := rfl
@[simp] theorem mapGroup_finished (k : Nat) (f : Group → Group) : (s.mapGroup k f).finished = s.finished := rfl
@[simp] theorem mapGroup_cancels (k : Nat) (f : Group → Group) : (s.mapGroup k f).cancels = s.cancels := rfl
@[simp] theorem mapGroup_ranCopy (k : Nat) (f : Group → Group) : (s.mapGroup k f).ranCopy = s.ranCopy := rfl
@[simp] theorem mapGroup_wakes (k : Nat) (f : Group → Group) : (s.mapGroup k f).wakes = s.wakes := rfl
@[simp] theorem mapGroup_bells (k : Nat) (f : Group → Group) : (s.mapGroup k f).bells = s.bells := rfl
@[simp] theorem mapGroup_arrivals (k : Nat) (f : Group → Group) : (s.mapGroup k f).arrivals = s.arrivals := rfl
@[simp] theorem mapGroup_arrcmd (k : Nat) (f : Group → Group) : (s.mapGroup k f).arrcmd = s.arrcmd := rfl
@[simp] theorem mapGroup_contained (k : Nat) (f : Group → Group) : (s.mapGroup k f).contained = s.contained := rfl
@[simp] theorem mapGroup_links (k : Nat) (f : Group → Group) : (s.mapGroup k f).links = s.links := rfl
@[simp] theorem mapGroup_aer (k : Nat) (f : Group → Group) : (s.mapGroup k f).aer = s.aer := rfl
@[simp] theorem mapGroup_mailbox (k : Nat) (f : Group → Group) : (s.mapGroup k f).mailbox = s.mailbox := rfl
@[simp] theorem mapGroup_invalidation (k : Nat) (f : Group → Group) : (s.mapGroup k f).invalidation = s.invalidation := rfl
@[simp] theorem mapGroup_migration (k : Nat) (f : Group → Group) : (s.mapGroup k f).migration = s.migration := rfl
@[simp] theorem mapGroup_endpoints (k : Nat) (f : Group → Group) : (s.mapGroup k f).endpoints = s.endpoints := rfl
@[simp] theorem mapGroup_hartq (k : Nat) (f : Group → Group) : (s.mapGroup k f).hartq = s.hartq := rfl
@[simp] theorem mapGroup_flight (k : Nat) (f : Group → Group) : (s.mapGroup k f).flight = s.flight := rfl
@[simp] theorem mapGroup_linkSeq (k : Nat) (f : Group → Group) : (s.mapGroup k f).linkSeq = s.linkSeq := rfl
@[simp] theorem mapGroup_mseq (k : Nat) (f : Group → Group) : (s.mapGroup k f).mseq = s.mseq := rfl
@[simp] theorem mapGroup_known (k : Nat) (f : Group → Group) : (s.mapGroup k f).known = s.known := rfl
@[simp] theorem mapGroup_rtkt (k : Nat) (f : Group → Group) : (s.mapGroup k f).rtkt = s.rtkt := rfl
@[simp] theorem mapGroup_heldTickets (k : Nat) (f : Group → Group) : (s.mapGroup k f).heldTickets = s.heldTickets := rfl
@[simp] theorem mapGroup_planeNow (k : Nat) (f : Group → Group) : (s.mapGroup k f).planeNow = s.planeNow := rfl
@[simp] theorem mapGroup_escape (k : Nat) (f : Group → Group) : (s.mapGroup k f).escape = s.escape := rfl
@[simp] theorem mapGroup_early (k : Nat) (f : Group → Group) : (s.mapGroup k f).early = s.early := rfl
@[simp] theorem mapGroup_tickets (k : Nat) (f : Group → Group) : (s.mapGroup k f).tickets = s.tickets := rfl
@[simp] theorem mapGroup_waiting (k : Nat) (f : Group → Group) : (s.mapGroup k f).waiting = s.waiting := rfl
@[simp] theorem mapGroup_refused (k : Nat) (f : Group → Group) : (s.mapGroup k f).refused = s.refused := rfl
@[simp] theorem mapGroup_performed (k : Nat) (f : Group → Group) : (s.mapGroup k f).performed = s.performed := rfl
@[simp] theorem mapGroup_mcnt (k : Nat) (f : Group → Group) : (s.mapGroup k f).mcnt = s.mcnt := rfl
@[simp] theorem mapGroup_flagged (k : Nat) (f : Group → Group) : (s.mapGroup k f).flagged = s.flagged := rfl
@[simp] theorem mapGroup_reports (k : Nat) (f : Group → Group) : (s.mapGroup k f).reports = s.reports := rfl
@[simp] theorem mapGroup_firmware (k : Nat) (f : Group → Group) : (s.mapGroup k f).firmware = s.firmware := rfl
@[simp] theorem mapGroup_weights (k : Nat) (f : Group → Group) : (s.mapGroup k f).weights = s.weights := rfl
@[simp] theorem mapGroup_lastSeqno (k : Nat) (f : Group → Group) : (s.mapGroup k f).lastSeqno = s.lastSeqno := rfl
@[simp] theorem mapGroup_install (k : Nat) (f : Group → Group) : (s.mapGroup k f).install = s.install := rfl
@[simp] theorem mapGroup_mlog (k : Nat) (f : Group → Group) : (s.mapGroup k f).mlog = s.mlog := rfl
@[simp] theorem mapGroup_m (k : Nat) (f : Group → Group) : (s.mapGroup k f).m = s.m := rfl
@[simp] theorem mapGroup_pod (k : Nat) (f : Group → Group) : (s.mapGroup k f).pod = s.pod := rfl
@[simp] theorem mapGroup_spares (k : Nat) (f : Group → Group) : (s.mapGroup k f).spares = s.spares := rfl
@[simp] theorem mapGroup_draining (k : Nat) (f : Group → Group) : (s.mapGroup k f).draining = s.draining := rfl
@[simp] theorem mapGroup_retiredCores (k : Nat) (f : Group → Group) : (s.mapGroup k f).retiredCores = s.retiredCores := rfl
@[simp] theorem mapGroup_out (k : Nat) (f : Group → Group) : (s.mapGroup k f).out = s.out := rfl

/-! ### setPart -/

@[simp] theorem setPart_agenda (n : Nat) (p : Part) : (s.setPart n p).agenda = s.agenda := rfl
@[simp] theorem setPart_input (n : Nat) (p : Part) : (s.setPart n p).input = s.input := rfl
@[simp] theorem setPart_fresh (n : Nat) (p : Part) : (s.setPart n p).fresh = s.fresh := rfl
@[simp] theorem setPart_issue (n : Nat) (p : Part) : (s.setPart n p).issue = s.issue := rfl
@[simp] theorem setPart_clock (n : Nat) (p : Part) : (s.setPart n p).clock = s.clock := rfl
@[simp] theorem setPart_timers (n : Nat) (p : Part) : (s.setPart n p).timers = s.timers := rfl
@[simp] theorem setPart_nextId (n : Nat) (p : Part) : (s.setPart n p).nextId = s.nextId := rfl
@[simp] theorem setPart_mem (n : Nat) (p : Part) : (s.setPart n p).mem = s.mem := rfl
@[simp] theorem setPart_tick (n : Nat) (p : Part) : (s.setPart n p).tick = s.tick := rfl
@[simp] theorem setPart_hist (n : Nat) (p : Part) : (s.setPart n p).hist = s.hist := rfl
@[simp] theorem setPart_base (n : Nat) (p : Part) : (s.setPart n p).base = s.base := rfl
@[simp] theorem setPart_msgs (n : Nat) (p : Part) : (s.setPart n p).msgs = s.msgs := rfl
@[simp] theorem setPart_cleared (n : Nat) (p : Part) : (s.setPart n p).cleared = s.cleared := rfl
@[simp] theorem setPart_waiters (n : Nat) (p : Part) : (s.setPart n p).waiters = s.waiters := rfl
@[simp] theorem setPart_portRegs (n : Nat) (p : Part) : (s.setPart n p).portRegs = s.portRegs := rfl
@[simp] theorem setPart_poison (n : Nat) (p : Part) : (s.setPart n p).poison = s.poison := rfl
@[simp] theorem setPart_marks (n : Nat) (p : Part) : (s.setPart n p).marks = s.marks := rfl
@[simp] theorem setPart_groups (n : Nat) (p : Part) : (s.setPart n p).groups = s.groups := rfl
@[simp] theorem setPart_units (n : Nat) (p : Part) : (s.setPart n p).units = s.units := rfl
@[simp] theorem setPart_launches (n : Nat) (p : Part) : (s.setPart n p).launches = s.launches := rfl
@[simp] theorem setPart_parts (n : Nat) (p : Part) : (s.setPart n p).parts = Assoc.set {} s.parts n p := rfl
@[simp] theorem setPart_slots (n : Nat) (p : Part) : (s.setPart n p).slots = s.slots := rfl
@[simp] theorem setPart_ops (n : Nat) (p : Part) : (s.setPart n p).ops = s.ops := rfl
@[simp] theorem setPart_ctl (n : Nat) (p : Part) : (s.setPart n p).ctl = s.ctl := rfl
@[simp] theorem setPart_rings (n : Nat) (p : Part) : (s.setPart n p).rings = s.rings := rfl
@[simp] theorem setPart_ringPhase (n : Nat) (p : Part) : (s.setPart n p).ringPhase = s.ringPhase := rfl
@[simp] theorem setPart_tlb (n : Nat) (p : Part) : (s.setPart n p).tlb = s.tlb := rfl
@[simp] theorem setPart_nodes (n : Nat) (p : Part) : (s.setPart n p).nodes = s.nodes := rfl
@[simp] theorem setPart_hdm (n : Nat) (p : Part) : (s.setPart n p).hdm = s.hdm := rfl
@[simp] theorem setPart_harts (n : Nat) (p : Part) : (s.setPart n p).harts = s.harts := rfl
@[simp] theorem setPart_copies (n : Nat) (p : Part) : (s.setPart n p).copies = s.copies := rfl
@[simp] theorem setPart_services (n : Nat) (p : Part) : (s.setPart n p).services = s.services := rfl
@[simp] theorem setPart_devq (n : Nat) (p : Part) : (s.setPart n p).devq = s.devq := rfl
@[simp] theorem setPart_locks (n : Nat) (p : Part) : (s.setPart n p).locks = s.locks := rfl
@[simp] theorem setPart_walked (n : Nat) (p : Part) : (s.setPart n p).walked = s.walked := rfl
@[simp] theorem setPart_objs (n : Nat) (p : Part) : (s.setPart n p).objs = s.objs := rfl
@[simp] theorem setPart_touched (n : Nat) (p : Part) : (s.setPart n p).touched = s.touched := rfl
@[simp] theorem setPart_finished (n : Nat) (p : Part) : (s.setPart n p).finished = s.finished := rfl
@[simp] theorem setPart_cancels (n : Nat) (p : Part) : (s.setPart n p).cancels = s.cancels := rfl
@[simp] theorem setPart_ranCopy (n : Nat) (p : Part) : (s.setPart n p).ranCopy = s.ranCopy := rfl
@[simp] theorem setPart_wakes (n : Nat) (p : Part) : (s.setPart n p).wakes = s.wakes := rfl
@[simp] theorem setPart_bells (n : Nat) (p : Part) : (s.setPart n p).bells = s.bells := rfl
@[simp] theorem setPart_arrivals (n : Nat) (p : Part) : (s.setPart n p).arrivals = s.arrivals := rfl
@[simp] theorem setPart_arrcmd (n : Nat) (p : Part) : (s.setPart n p).arrcmd = s.arrcmd := rfl
@[simp] theorem setPart_contained (n : Nat) (p : Part) : (s.setPart n p).contained = s.contained := rfl
@[simp] theorem setPart_links (n : Nat) (p : Part) : (s.setPart n p).links = s.links := rfl
@[simp] theorem setPart_aer (n : Nat) (p : Part) : (s.setPart n p).aer = s.aer := rfl
@[simp] theorem setPart_mailbox (n : Nat) (p : Part) : (s.setPart n p).mailbox = s.mailbox := rfl
@[simp] theorem setPart_invalidation (n : Nat) (p : Part) : (s.setPart n p).invalidation = s.invalidation := rfl
@[simp] theorem setPart_migration (n : Nat) (p : Part) : (s.setPart n p).migration = s.migration := rfl
@[simp] theorem setPart_endpoints (n : Nat) (p : Part) : (s.setPart n p).endpoints = s.endpoints := rfl
@[simp] theorem setPart_hartq (n : Nat) (p : Part) : (s.setPart n p).hartq = s.hartq := rfl
@[simp] theorem setPart_flight (n : Nat) (p : Part) : (s.setPart n p).flight = s.flight := rfl
@[simp] theorem setPart_linkSeq (n : Nat) (p : Part) : (s.setPart n p).linkSeq = s.linkSeq := rfl
@[simp] theorem setPart_mseq (n : Nat) (p : Part) : (s.setPart n p).mseq = s.mseq := rfl
@[simp] theorem setPart_known (n : Nat) (p : Part) : (s.setPart n p).known = s.known := rfl
@[simp] theorem setPart_rtkt (n : Nat) (p : Part) : (s.setPart n p).rtkt = s.rtkt := rfl
@[simp] theorem setPart_heldTickets (n : Nat) (p : Part) : (s.setPart n p).heldTickets = s.heldTickets := rfl
@[simp] theorem setPart_planeNow (n : Nat) (p : Part) : (s.setPart n p).planeNow = s.planeNow := rfl
@[simp] theorem setPart_escape (n : Nat) (p : Part) : (s.setPart n p).escape = s.escape := rfl
@[simp] theorem setPart_early (n : Nat) (p : Part) : (s.setPart n p).early = s.early := rfl
@[simp] theorem setPart_tickets (n : Nat) (p : Part) : (s.setPart n p).tickets = s.tickets := rfl
@[simp] theorem setPart_waiting (n : Nat) (p : Part) : (s.setPart n p).waiting = s.waiting := rfl
@[simp] theorem setPart_refused (n : Nat) (p : Part) : (s.setPart n p).refused = s.refused := rfl
@[simp] theorem setPart_performed (n : Nat) (p : Part) : (s.setPart n p).performed = s.performed := rfl
@[simp] theorem setPart_mcnt (n : Nat) (p : Part) : (s.setPart n p).mcnt = s.mcnt := rfl
@[simp] theorem setPart_flagged (n : Nat) (p : Part) : (s.setPart n p).flagged = s.flagged := rfl
@[simp] theorem setPart_reports (n : Nat) (p : Part) : (s.setPart n p).reports = s.reports := rfl
@[simp] theorem setPart_firmware (n : Nat) (p : Part) : (s.setPart n p).firmware = s.firmware := rfl
@[simp] theorem setPart_weights (n : Nat) (p : Part) : (s.setPart n p).weights = s.weights := rfl
@[simp] theorem setPart_lastSeqno (n : Nat) (p : Part) : (s.setPart n p).lastSeqno = s.lastSeqno := rfl
@[simp] theorem setPart_install (n : Nat) (p : Part) : (s.setPart n p).install = s.install := rfl
@[simp] theorem setPart_mlog (n : Nat) (p : Part) : (s.setPart n p).mlog = s.mlog := rfl
@[simp] theorem setPart_m (n : Nat) (p : Part) : (s.setPart n p).m = s.m := rfl
@[simp] theorem setPart_pod (n : Nat) (p : Part) : (s.setPart n p).pod = s.pod := rfl
@[simp] theorem setPart_spares (n : Nat) (p : Part) : (s.setPart n p).spares = s.spares := rfl
@[simp] theorem setPart_draining (n : Nat) (p : Part) : (s.setPart n p).draining = s.draining := rfl
@[simp] theorem setPart_retiredCores (n : Nat) (p : Part) : (s.setPart n p).retiredCores = s.retiredCores := rfl
@[simp] theorem setPart_out (n : Nat) (p : Part) : (s.setPart n p).out = s.out := rfl

/-! ### store -/

@[simp] theorem store_agenda (c : List Host.Cell) (r : Bool) : (s.store c r).agenda = s.agenda := rfl
@[simp] theorem store_input (c : List Host.Cell) (r : Bool) : (s.store c r).input = s.input := rfl
@[simp] theorem store_fresh (c : List Host.Cell) (r : Bool) : (s.store c r).fresh = s.fresh := rfl
@[simp] theorem store_issue (c : List Host.Cell) (r : Bool) : (s.store c r).issue = s.issue := rfl
@[simp] theorem store_clock (c : List Host.Cell) (r : Bool) : (s.store c r).clock = s.clock := rfl
@[simp] theorem store_timers (c : List Host.Cell) (r : Bool) : (s.store c r).timers = s.timers := rfl
@[simp] theorem store_nextId (c : List Host.Cell) (r : Bool) : (s.store c r).nextId = s.nextId := rfl
@[simp] theorem store_mem (c : List Host.Cell) (r : Bool) : (s.store c r).mem = memStore s.mem c := rfl
@[simp] theorem store_tick (c : List Host.Cell) (r : Bool) : (s.store c r).tick = s.tick := rfl
@[simp] theorem store_hist (c : List Host.Cell) (r : Bool) :
    (s.store c r).hist = { time := s.tick, old := c.map (fun x => (x.1, memByte s.mem x.1)), rmw := r } :: s.hist := rfl
@[simp] theorem store_base (c : List Host.Cell) (r : Bool) : (s.store c r).base = s.base := rfl
@[simp] theorem store_msgs (c : List Host.Cell) (r : Bool) : (s.store c r).msgs = s.msgs := rfl
@[simp] theorem store_cleared (c : List Host.Cell) (r : Bool) : (s.store c r).cleared = s.cleared := rfl
@[simp] theorem store_waiters (c : List Host.Cell) (r : Bool) : (s.store c r).waiters = s.waiters := rfl
@[simp] theorem store_portRegs (c : List Host.Cell) (r : Bool) : (s.store c r).portRegs = s.portRegs := rfl
@[simp] theorem store_poison (c : List Host.Cell) (r : Bool) : (s.store c r).poison = (wholeSectors c).foldl (fun p k => Assoc.set false p k false) s.poison := rfl
@[simp] theorem store_marks (c : List Host.Cell) (r : Bool) : (s.store c r).marks = s.marks := rfl
@[simp] theorem store_groups (c : List Host.Cell) (r : Bool) : (s.store c r).groups = s.groups := rfl
@[simp] theorem store_units (c : List Host.Cell) (r : Bool) : (s.store c r).units = s.units := rfl
@[simp] theorem store_launches (c : List Host.Cell) (r : Bool) : (s.store c r).launches = s.launches := rfl
@[simp] theorem store_parts (c : List Host.Cell) (r : Bool) : (s.store c r).parts = s.parts := rfl
@[simp] theorem store_slots (c : List Host.Cell) (r : Bool) : (s.store c r).slots = s.slots := rfl
@[simp] theorem store_ops (c : List Host.Cell) (r : Bool) : (s.store c r).ops = s.ops := rfl
@[simp] theorem store_ctl (c : List Host.Cell) (r : Bool) : (s.store c r).ctl = s.ctl := rfl
@[simp] theorem store_rings (c : List Host.Cell) (r : Bool) : (s.store c r).rings = s.rings := rfl
@[simp] theorem store_ringPhase (c : List Host.Cell) (r : Bool) : (s.store c r).ringPhase = s.ringPhase := rfl
@[simp] theorem store_tlb (c : List Host.Cell) (r : Bool) : (s.store c r).tlb = s.tlb := rfl
@[simp] theorem store_nodes (c : List Host.Cell) (r : Bool) : (s.store c r).nodes = s.nodes := rfl
@[simp] theorem store_hdm (c : List Host.Cell) (r : Bool) : (s.store c r).hdm = s.hdm := rfl
@[simp] theorem store_harts (c : List Host.Cell) (r : Bool) : (s.store c r).harts = s.harts := rfl
@[simp] theorem store_copies (c : List Host.Cell) (r : Bool) : (s.store c r).copies = s.copies := rfl
@[simp] theorem store_services (c : List Host.Cell) (r : Bool) : (s.store c r).services = s.services := rfl
@[simp] theorem store_devq (c : List Host.Cell) (r : Bool) : (s.store c r).devq = s.devq := rfl
@[simp] theorem store_locks (c : List Host.Cell) (r : Bool) : (s.store c r).locks = s.locks := rfl
@[simp] theorem store_walked (c : List Host.Cell) (r : Bool) : (s.store c r).walked = s.walked := rfl
@[simp] theorem store_objs (c : List Host.Cell) (r : Bool) : (s.store c r).objs = s.objs := rfl
@[simp] theorem store_touched (c : List Host.Cell) (r : Bool) : (s.store c r).touched = s.touched := rfl
@[simp] theorem store_finished (c : List Host.Cell) (r : Bool) : (s.store c r).finished = s.finished := rfl
@[simp] theorem store_cancels (c : List Host.Cell) (r : Bool) : (s.store c r).cancels = s.cancels := rfl
@[simp] theorem store_ranCopy (c : List Host.Cell) (r : Bool) : (s.store c r).ranCopy = s.ranCopy := rfl
@[simp] theorem store_wakes (c : List Host.Cell) (r : Bool) : (s.store c r).wakes = s.wakes := rfl
@[simp] theorem store_bells (c : List Host.Cell) (r : Bool) : (s.store c r).bells = s.bells := rfl
@[simp] theorem store_arrivals (c : List Host.Cell) (r : Bool) : (s.store c r).arrivals = s.arrivals := rfl
@[simp] theorem store_arrcmd (c : List Host.Cell) (r : Bool) : (s.store c r).arrcmd = s.arrcmd := rfl
@[simp] theorem store_contained (c : List Host.Cell) (r : Bool) : (s.store c r).contained = s.contained := rfl
@[simp] theorem store_links (c : List Host.Cell) (r : Bool) : (s.store c r).links = s.links := rfl
@[simp] theorem store_aer (c : List Host.Cell) (r : Bool) : (s.store c r).aer = s.aer := rfl
@[simp] theorem store_mailbox (c : List Host.Cell) (r : Bool) : (s.store c r).mailbox = s.mailbox := rfl
@[simp] theorem store_invalidation (c : List Host.Cell) (r : Bool) : (s.store c r).invalidation = s.invalidation := rfl
@[simp] theorem store_migration (c : List Host.Cell) (r : Bool) : (s.store c r).migration = s.migration := rfl
@[simp] theorem store_endpoints (c : List Host.Cell) (r : Bool) : (s.store c r).endpoints = s.endpoints := rfl
@[simp] theorem store_hartq (c : List Host.Cell) (r : Bool) : (s.store c r).hartq = s.hartq := rfl
@[simp] theorem store_flight (c : List Host.Cell) (r : Bool) : (s.store c r).flight = s.flight := rfl
@[simp] theorem store_linkSeq (c : List Host.Cell) (r : Bool) : (s.store c r).linkSeq = s.linkSeq := rfl
@[simp] theorem store_mseq (c : List Host.Cell) (r : Bool) : (s.store c r).mseq = s.mseq := rfl
@[simp] theorem store_known (c : List Host.Cell) (r : Bool) : (s.store c r).known = s.known := rfl
@[simp] theorem store_rtkt (c : List Host.Cell) (r : Bool) : (s.store c r).rtkt = s.rtkt := rfl
@[simp] theorem store_heldTickets (c : List Host.Cell) (r : Bool) : (s.store c r).heldTickets = s.heldTickets := rfl
@[simp] theorem store_planeNow (c : List Host.Cell) (r : Bool) : (s.store c r).planeNow = s.planeNow := rfl
@[simp] theorem store_escape (c : List Host.Cell) (r : Bool) : (s.store c r).escape = s.escape := rfl
@[simp] theorem store_early (c : List Host.Cell) (r : Bool) : (s.store c r).early = s.early := rfl
@[simp] theorem store_tickets (c : List Host.Cell) (r : Bool) : (s.store c r).tickets = s.tickets := rfl
@[simp] theorem store_waiting (c : List Host.Cell) (r : Bool) : (s.store c r).waiting = s.waiting := rfl
@[simp] theorem store_refused (c : List Host.Cell) (r : Bool) : (s.store c r).refused = s.refused := rfl
@[simp] theorem store_performed (c : List Host.Cell) (r : Bool) : (s.store c r).performed = s.performed := rfl
@[simp] theorem store_mcnt (c : List Host.Cell) (r : Bool) : (s.store c r).mcnt = s.mcnt := rfl
@[simp] theorem store_flagged (c : List Host.Cell) (r : Bool) : (s.store c r).flagged = s.flagged := rfl
@[simp] theorem store_reports (c : List Host.Cell) (r : Bool) : (s.store c r).reports = s.reports := rfl
@[simp] theorem store_firmware (c : List Host.Cell) (r : Bool) : (s.store c r).firmware = s.firmware := rfl
@[simp] theorem store_weights (c : List Host.Cell) (r : Bool) : (s.store c r).weights = s.weights := rfl
@[simp] theorem store_lastSeqno (c : List Host.Cell) (r : Bool) : (s.store c r).lastSeqno = s.lastSeqno := rfl
@[simp] theorem store_install (c : List Host.Cell) (r : Bool) : (s.store c r).install = s.install := rfl
@[simp] theorem store_mlog (c : List Host.Cell) (r : Bool) : (s.store c r).mlog = s.mlog := rfl
@[simp] theorem store_m (c : List Host.Cell) (r : Bool) : (s.store c r).m = s.m := rfl
@[simp] theorem store_pod (c : List Host.Cell) (r : Bool) : (s.store c r).pod = s.pod := rfl
@[simp] theorem store_spares (c : List Host.Cell) (r : Bool) : (s.store c r).spares = s.spares := rfl
@[simp] theorem store_draining (c : List Host.Cell) (r : Bool) : (s.store c r).draining = s.draining := rfl
@[simp] theorem store_retiredCores (c : List Host.Cell) (r : Bool) : (s.store c r).retiredCores = s.retiredCores := rfl
@[simp] theorem store_out (c : List Host.Cell) (r : Bool) : (s.store c r).out = s.out := rfl

/-! ### clearMarks -/

@[simp] theorem clearMarks_agenda (l : List Nat) : (s.clearMarks l).agenda = s.agenda := rfl
@[simp] theorem clearMarks_input (l : List Nat) : (s.clearMarks l).input = s.input := rfl
@[simp] theorem clearMarks_fresh (l : List Nat) : (s.clearMarks l).fresh = s.fresh := rfl
@[simp] theorem clearMarks_issue (l : List Nat) : (s.clearMarks l).issue = s.issue := rfl
@[simp] theorem clearMarks_clock (l : List Nat) : (s.clearMarks l).clock = s.clock := rfl
@[simp] theorem clearMarks_timers (l : List Nat) : (s.clearMarks l).timers = s.timers := rfl
@[simp] theorem clearMarks_nextId (l : List Nat) : (s.clearMarks l).nextId = s.nextId := rfl
@[simp] theorem clearMarks_mem (l : List Nat) : (s.clearMarks l).mem = s.mem := rfl
@[simp] theorem clearMarks_tick (l : List Nat) : (s.clearMarks l).tick = s.tick := rfl
@[simp] theorem clearMarks_hist (l : List Nat) : (s.clearMarks l).hist = s.hist := rfl
@[simp] theorem clearMarks_base (l : List Nat) : (s.clearMarks l).base = s.base := rfl
@[simp] theorem clearMarks_msgs (l : List Nat) : (s.clearMarks l).msgs = s.msgs := rfl
@[simp] theorem clearMarks_waiters (l : List Nat) : (s.clearMarks l).waiters = s.waiters := rfl
@[simp] theorem clearMarks_portRegs (l : List Nat) : (s.clearMarks l).portRegs = s.portRegs := rfl
@[simp] theorem clearMarks_poison (l : List Nat) : (s.clearMarks l).poison = s.poison := rfl
@[simp] theorem clearMarks_marks (l : List Nat) : (s.clearMarks l).marks = l.foldl (fun m k => Assoc.set false m k false) s.marks := rfl
@[simp] theorem clearMarks_cleared (l : List Nat) :
    (s.clearMarks l).cleared = l.foldl (fun m k => if Assoc.get false s.marks k then Assoc.set 0 m k s.tick else m) s.cleared := rfl
@[simp] theorem clearMarks_groups (l : List Nat) : (s.clearMarks l).groups = s.groups := rfl
@[simp] theorem clearMarks_units (l : List Nat) : (s.clearMarks l).units = s.units := rfl
@[simp] theorem clearMarks_launches (l : List Nat) : (s.clearMarks l).launches = s.launches := rfl
@[simp] theorem clearMarks_parts (l : List Nat) : (s.clearMarks l).parts = s.parts := rfl
@[simp] theorem clearMarks_slots (l : List Nat) : (s.clearMarks l).slots = s.slots := rfl
@[simp] theorem clearMarks_ops (l : List Nat) : (s.clearMarks l).ops = s.ops := rfl
@[simp] theorem clearMarks_ctl (l : List Nat) : (s.clearMarks l).ctl = s.ctl := rfl
@[simp] theorem clearMarks_rings (l : List Nat) : (s.clearMarks l).rings = s.rings := rfl
@[simp] theorem clearMarks_ringPhase (l : List Nat) : (s.clearMarks l).ringPhase = s.ringPhase := rfl
@[simp] theorem clearMarks_tlb (l : List Nat) : (s.clearMarks l).tlb = s.tlb := rfl
@[simp] theorem clearMarks_nodes (l : List Nat) : (s.clearMarks l).nodes = s.nodes := rfl
@[simp] theorem clearMarks_hdm (l : List Nat) : (s.clearMarks l).hdm = s.hdm := rfl
@[simp] theorem clearMarks_harts (l : List Nat) : (s.clearMarks l).harts = s.harts := rfl
@[simp] theorem clearMarks_copies (l : List Nat) : (s.clearMarks l).copies = s.copies := rfl
@[simp] theorem clearMarks_services (l : List Nat) : (s.clearMarks l).services = s.services := rfl
@[simp] theorem clearMarks_devq (l : List Nat) : (s.clearMarks l).devq = s.devq := rfl
@[simp] theorem clearMarks_locks (l : List Nat) : (s.clearMarks l).locks = s.locks := rfl
@[simp] theorem clearMarks_walked (l : List Nat) : (s.clearMarks l).walked = s.walked := rfl
@[simp] theorem clearMarks_objs (l : List Nat) : (s.clearMarks l).objs = s.objs := rfl
@[simp] theorem clearMarks_touched (l : List Nat) : (s.clearMarks l).touched = s.touched := rfl
@[simp] theorem clearMarks_finished (l : List Nat) : (s.clearMarks l).finished = s.finished := rfl
@[simp] theorem clearMarks_cancels (l : List Nat) : (s.clearMarks l).cancels = s.cancels := rfl
@[simp] theorem clearMarks_ranCopy (l : List Nat) : (s.clearMarks l).ranCopy = s.ranCopy := rfl
@[simp] theorem clearMarks_wakes (l : List Nat) : (s.clearMarks l).wakes = s.wakes := rfl
@[simp] theorem clearMarks_bells (l : List Nat) : (s.clearMarks l).bells = s.bells := rfl
@[simp] theorem clearMarks_arrivals (l : List Nat) : (s.clearMarks l).arrivals = s.arrivals := rfl
@[simp] theorem clearMarks_arrcmd (l : List Nat) : (s.clearMarks l).arrcmd = s.arrcmd := rfl
@[simp] theorem clearMarks_contained (l : List Nat) : (s.clearMarks l).contained = s.contained := rfl
@[simp] theorem clearMarks_links (l : List Nat) : (s.clearMarks l).links = s.links := rfl
@[simp] theorem clearMarks_aer (l : List Nat) : (s.clearMarks l).aer = s.aer := rfl
@[simp] theorem clearMarks_mailbox (l : List Nat) : (s.clearMarks l).mailbox = s.mailbox := rfl
@[simp] theorem clearMarks_invalidation (l : List Nat) : (s.clearMarks l).invalidation = s.invalidation := rfl
@[simp] theorem clearMarks_migration (l : List Nat) : (s.clearMarks l).migration = s.migration := rfl
@[simp] theorem clearMarks_endpoints (l : List Nat) : (s.clearMarks l).endpoints = s.endpoints := rfl
@[simp] theorem clearMarks_hartq (l : List Nat) : (s.clearMarks l).hartq = s.hartq := rfl
@[simp] theorem clearMarks_flight (l : List Nat) : (s.clearMarks l).flight = s.flight := rfl
@[simp] theorem clearMarks_linkSeq (l : List Nat) : (s.clearMarks l).linkSeq = s.linkSeq := rfl
@[simp] theorem clearMarks_mseq (l : List Nat) : (s.clearMarks l).mseq = s.mseq := rfl
@[simp] theorem clearMarks_known (l : List Nat) : (s.clearMarks l).known = s.known := rfl
@[simp] theorem clearMarks_rtkt (l : List Nat) : (s.clearMarks l).rtkt = s.rtkt := rfl
@[simp] theorem clearMarks_heldTickets (l : List Nat) : (s.clearMarks l).heldTickets = s.heldTickets := rfl
@[simp] theorem clearMarks_planeNow (l : List Nat) : (s.clearMarks l).planeNow = s.planeNow := rfl
@[simp] theorem clearMarks_escape (l : List Nat) : (s.clearMarks l).escape = s.escape := rfl
@[simp] theorem clearMarks_early (l : List Nat) : (s.clearMarks l).early = s.early := rfl
@[simp] theorem clearMarks_tickets (l : List Nat) : (s.clearMarks l).tickets = s.tickets := rfl
@[simp] theorem clearMarks_waiting (l : List Nat) : (s.clearMarks l).waiting = s.waiting := rfl
@[simp] theorem clearMarks_refused (l : List Nat) : (s.clearMarks l).refused = s.refused := rfl
@[simp] theorem clearMarks_performed (l : List Nat) : (s.clearMarks l).performed = s.performed := rfl
@[simp] theorem clearMarks_mcnt (l : List Nat) : (s.clearMarks l).mcnt = s.mcnt := rfl
@[simp] theorem clearMarks_flagged (l : List Nat) : (s.clearMarks l).flagged = s.flagged := rfl
@[simp] theorem clearMarks_reports (l : List Nat) : (s.clearMarks l).reports = s.reports := rfl
@[simp] theorem clearMarks_firmware (l : List Nat) : (s.clearMarks l).firmware = s.firmware := rfl
@[simp] theorem clearMarks_weights (l : List Nat) : (s.clearMarks l).weights = s.weights := rfl
@[simp] theorem clearMarks_lastSeqno (l : List Nat) : (s.clearMarks l).lastSeqno = s.lastSeqno := rfl
@[simp] theorem clearMarks_install (l : List Nat) : (s.clearMarks l).install = s.install := rfl
@[simp] theorem clearMarks_mlog (l : List Nat) : (s.clearMarks l).mlog = s.mlog := rfl
@[simp] theorem clearMarks_m (l : List Nat) : (s.clearMarks l).m = s.m := rfl
@[simp] theorem clearMarks_pod (l : List Nat) : (s.clearMarks l).pod = s.pod := rfl
@[simp] theorem clearMarks_spares (l : List Nat) : (s.clearMarks l).spares = s.spares := rfl
@[simp] theorem clearMarks_draining (l : List Nat) : (s.clearMarks l).draining = s.draining := rfl
@[simp] theorem clearMarks_retiredCores (l : List Nat) : (s.clearMarks l).retiredCores = s.retiredCores := rfl
@[simp] theorem clearMarks_out (l : List Nat) : (s.clearMarks l).out = s.out := rfl

/-! ### ctlSet -/

@[simp] theorem ctlSet_agenda (b : Block) (o n x : Nat) : (s.ctlSet b o n x).agenda = s.agenda := rfl
@[simp] theorem ctlSet_input (b : Block) (o n x : Nat) : (s.ctlSet b o n x).input = s.input := rfl
@[simp] theorem ctlSet_fresh (b : Block) (o n x : Nat) : (s.ctlSet b o n x).fresh = s.fresh := rfl
@[simp] theorem ctlSet_issue (b : Block) (o n x : Nat) : (s.ctlSet b o n x).issue = s.issue := rfl
@[simp] theorem ctlSet_clock (b : Block) (o n x : Nat) : (s.ctlSet b o n x).clock = s.clock := rfl
@[simp] theorem ctlSet_timers (b : Block) (o n x : Nat) : (s.ctlSet b o n x).timers = s.timers := rfl
@[simp] theorem ctlSet_nextId (b : Block) (o n x : Nat) : (s.ctlSet b o n x).nextId = s.nextId := rfl
@[simp] theorem ctlSet_mem (b : Block) (o n x : Nat) : (s.ctlSet b o n x).mem = s.mem := rfl
@[simp] theorem ctlSet_tick (b : Block) (o n x : Nat) : (s.ctlSet b o n x).tick = s.tick := rfl
@[simp] theorem ctlSet_hist (b : Block) (o n x : Nat) : (s.ctlSet b o n x).hist = s.hist := rfl
@[simp] theorem ctlSet_base (b : Block) (o n x : Nat) : (s.ctlSet b o n x).base = s.base := rfl
@[simp] theorem ctlSet_msgs (b : Block) (o n x : Nat) : (s.ctlSet b o n x).msgs = s.msgs := rfl
@[simp] theorem ctlSet_cleared (b : Block) (o n x : Nat) : (s.ctlSet b o n x).cleared = s.cleared := rfl
@[simp] theorem ctlSet_waiters (b : Block) (o n x : Nat) : (s.ctlSet b o n x).waiters = s.waiters := rfl
@[simp] theorem ctlSet_portRegs (b : Block) (o n x : Nat) : (s.ctlSet b o n x).portRegs = s.portRegs := rfl
@[simp] theorem ctlSet_poison (b : Block) (o n x : Nat) : (s.ctlSet b o n x).poison = s.poison := rfl
@[simp] theorem ctlSet_marks (b : Block) (o n x : Nat) : (s.ctlSet b o n x).marks = s.marks := rfl
@[simp] theorem ctlSet_groups (b : Block) (o n x : Nat) : (s.ctlSet b o n x).groups = s.groups := rfl
@[simp] theorem ctlSet_units (b : Block) (o n x : Nat) : (s.ctlSet b o n x).units = s.units := rfl
@[simp] theorem ctlSet_launches (b : Block) (o n x : Nat) : (s.ctlSet b o n x).launches = s.launches := rfl
@[simp] theorem ctlSet_parts (b : Block) (o n x : Nat) : (s.ctlSet b o n x).parts = s.parts := rfl
@[simp] theorem ctlSet_slots (b : Block) (o n x : Nat) : (s.ctlSet b o n x).slots = s.slots := rfl
@[simp] theorem ctlSet_ops (b : Block) (o n x : Nat) : (s.ctlSet b o n x).ops = s.ops := rfl
@[simp] theorem ctlSet_rings (b : Block) (o n x : Nat) : (s.ctlSet b o n x).rings = s.rings := rfl
@[simp] theorem ctlSet_ringPhase (b : Block) (o n x : Nat) : (s.ctlSet b o n x).ringPhase = s.ringPhase := rfl
@[simp] theorem ctlSet_tlb (b : Block) (o n x : Nat) : (s.ctlSet b o n x).tlb = s.tlb := rfl
@[simp] theorem ctlSet_nodes (b : Block) (o n x : Nat) : (s.ctlSet b o n x).nodes = s.nodes := rfl
@[simp] theorem ctlSet_hdm (b : Block) (o n x : Nat) : (s.ctlSet b o n x).hdm = s.hdm := rfl
@[simp] theorem ctlSet_harts (b : Block) (o n x : Nat) : (s.ctlSet b o n x).harts = s.harts := rfl
@[simp] theorem ctlSet_copies (b : Block) (o n x : Nat) : (s.ctlSet b o n x).copies = s.copies := rfl
@[simp] theorem ctlSet_services (b : Block) (o n x : Nat) : (s.ctlSet b o n x).services = s.services := rfl
@[simp] theorem ctlSet_devq (b : Block) (o n x : Nat) : (s.ctlSet b o n x).devq = s.devq := rfl
@[simp] theorem ctlSet_locks (b : Block) (o n x : Nat) : (s.ctlSet b o n x).locks = s.locks := rfl
@[simp] theorem ctlSet_walked (b : Block) (o n x : Nat) : (s.ctlSet b o n x).walked = s.walked := rfl
@[simp] theorem ctlSet_objs (b : Block) (o n x : Nat) : (s.ctlSet b o n x).objs = s.objs := rfl
@[simp] theorem ctlSet_touched (b : Block) (o n x : Nat) : (s.ctlSet b o n x).touched = s.touched := rfl
@[simp] theorem ctlSet_finished (b : Block) (o n x : Nat) : (s.ctlSet b o n x).finished = s.finished := rfl
@[simp] theorem ctlSet_cancels (b : Block) (o n x : Nat) : (s.ctlSet b o n x).cancels = s.cancels := rfl
@[simp] theorem ctlSet_ranCopy (b : Block) (o n x : Nat) : (s.ctlSet b o n x).ranCopy = s.ranCopy := rfl
@[simp] theorem ctlSet_wakes (b : Block) (o n x : Nat) : (s.ctlSet b o n x).wakes = s.wakes := rfl
@[simp] theorem ctlSet_bells (b : Block) (o n x : Nat) : (s.ctlSet b o n x).bells = s.bells := rfl
@[simp] theorem ctlSet_arrivals (b : Block) (o n x : Nat) : (s.ctlSet b o n x).arrivals = s.arrivals := rfl
@[simp] theorem ctlSet_arrcmd (b : Block) (o n x : Nat) : (s.ctlSet b o n x).arrcmd = s.arrcmd := rfl
@[simp] theorem ctlSet_contained (b : Block) (o n x : Nat) : (s.ctlSet b o n x).contained = s.contained := rfl
@[simp] theorem ctlSet_links (b : Block) (o n x : Nat) : (s.ctlSet b o n x).links = s.links := rfl
@[simp] theorem ctlSet_aer (b : Block) (o n x : Nat) : (s.ctlSet b o n x).aer = s.aer := rfl
@[simp] theorem ctlSet_mailbox (b : Block) (o n x : Nat) : (s.ctlSet b o n x).mailbox = s.mailbox := rfl
@[simp] theorem ctlSet_invalidation (b : Block) (o n x : Nat) : (s.ctlSet b o n x).invalidation = s.invalidation := rfl
@[simp] theorem ctlSet_migration (b : Block) (o n x : Nat) : (s.ctlSet b o n x).migration = s.migration := rfl
@[simp] theorem ctlSet_endpoints (b : Block) (o n x : Nat) : (s.ctlSet b o n x).endpoints = s.endpoints := rfl
@[simp] theorem ctlSet_hartq (b : Block) (o n x : Nat) : (s.ctlSet b o n x).hartq = s.hartq := rfl
@[simp] theorem ctlSet_flight (b : Block) (o n x : Nat) : (s.ctlSet b o n x).flight = s.flight := rfl
@[simp] theorem ctlSet_linkSeq (b : Block) (o n x : Nat) : (s.ctlSet b o n x).linkSeq = s.linkSeq := rfl
@[simp] theorem ctlSet_mseq (b : Block) (o n x : Nat) : (s.ctlSet b o n x).mseq = s.mseq := rfl
@[simp] theorem ctlSet_known (b : Block) (o n x : Nat) : (s.ctlSet b o n x).known = s.known := rfl
@[simp] theorem ctlSet_rtkt (b : Block) (o n x : Nat) : (s.ctlSet b o n x).rtkt = s.rtkt := rfl
@[simp] theorem ctlSet_heldTickets (b : Block) (o n x : Nat) : (s.ctlSet b o n x).heldTickets = s.heldTickets := rfl
@[simp] theorem ctlSet_planeNow (b : Block) (o n x : Nat) : (s.ctlSet b o n x).planeNow = s.planeNow := rfl
@[simp] theorem ctlSet_escape (b : Block) (o n x : Nat) : (s.ctlSet b o n x).escape = s.escape := rfl
@[simp] theorem ctlSet_early (b : Block) (o n x : Nat) : (s.ctlSet b o n x).early = s.early := rfl
@[simp] theorem ctlSet_tickets (b : Block) (o n x : Nat) : (s.ctlSet b o n x).tickets = s.tickets := rfl
@[simp] theorem ctlSet_waiting (b : Block) (o n x : Nat) : (s.ctlSet b o n x).waiting = s.waiting := rfl
@[simp] theorem ctlSet_refused (b : Block) (o n x : Nat) : (s.ctlSet b o n x).refused = s.refused := rfl
@[simp] theorem ctlSet_performed (b : Block) (o n x : Nat) : (s.ctlSet b o n x).performed = s.performed := rfl
@[simp] theorem ctlSet_mcnt (b : Block) (o n x : Nat) : (s.ctlSet b o n x).mcnt = s.mcnt := rfl
@[simp] theorem ctlSet_flagged (b : Block) (o n x : Nat) : (s.ctlSet b o n x).flagged = s.flagged := rfl
@[simp] theorem ctlSet_reports (b : Block) (o n x : Nat) : (s.ctlSet b o n x).reports = s.reports := rfl
@[simp] theorem ctlSet_firmware (b : Block) (o n x : Nat) : (s.ctlSet b o n x).firmware = s.firmware := rfl
@[simp] theorem ctlSet_weights (b : Block) (o n x : Nat) : (s.ctlSet b o n x).weights = s.weights := rfl
@[simp] theorem ctlSet_lastSeqno (b : Block) (o n x : Nat) : (s.ctlSet b o n x).lastSeqno = s.lastSeqno := rfl
@[simp] theorem ctlSet_install (b : Block) (o n x : Nat) : (s.ctlSet b o n x).install = s.install := rfl
@[simp] theorem ctlSet_mlog (b : Block) (o n x : Nat) : (s.ctlSet b o n x).mlog = s.mlog := rfl
@[simp] theorem ctlSet_m (b : Block) (o n x : Nat) : (s.ctlSet b o n x).m = s.m := rfl
@[simp] theorem ctlSet_pod (b : Block) (o n x : Nat) : (s.ctlSet b o n x).pod = s.pod := rfl
@[simp] theorem ctlSet_spares (b : Block) (o n x : Nat) : (s.ctlSet b o n x).spares = s.spares := rfl
@[simp] theorem ctlSet_draining (b : Block) (o n x : Nat) : (s.ctlSet b o n x).draining = s.draining := rfl
@[simp] theorem ctlSet_retiredCores (b : Block) (o n x : Nat) : (s.ctlSet b o n x).retiredCores = s.retiredCores := rfl
@[simp] theorem ctlSet_out (b : Block) (o n x : Nat) : (s.ctlSet b o n x).out = s.out := rfl

end Sys2Proof.Machine
end

