-- ==== Sys2Proof/Laws/Issue.lean ====
section
/-! SUPPORT. What issue can do, said once: the ways `perform` ends, the effect of an instruction that is ready, and the shapes of
lane, predicate and uniform results. -/

namespace Sys2Proof.Machine

/-- The context of an issue holds the state and the fragment of its live slot. -/
theorem issuing_some {s : State} {c : Ctx} (h : issuing s = some c) :
    c.s = s ∧ c.f = c.g.live c.slot ∧ Assoc.find c.key s.groups = some c.g ∧ c.f.kind = 1 ∧
    ∃ i, s.issue = some i ∧ c.key = i.key ∧ c.slot = i.slot ∧ c.now = i.before.cycle := by
  unfold issuing at h
  split at h
  · cases h
  · rename_i i hi
    split at h
    · cases h
    · rename_i g hg
      split at h
      · rename_i hk
        cases h
        exact ⟨rfl, rfl, hg, hk, i, hi, rfl, rfl, rfl⟩
      · cases h

@[simp] theorem worst_nil : worst [] = none := rfl

/-- A ready instruction with no trap of its own and nothing to wait for has its effect. -/
theorem perform_ready {i : Instr} {s : State} {c : Ctx} (r : Ready i s c) {word extra : Ctx → List Trap} {waits : Ctx → Bool}
    {effect : Ctx → State} (hw : word c = []) (hx : extra c = []) (hn : waits c = false) :
    perform i s word waits extra effect = .next (effect c) := by
  have h1 : c.wordTraps i (shapeOf c.g i) = [] := by simp [Ctx.wordTraps, r.legal, r.role]
  simp [perform, r.issuing, r.free, r.go, r.on, h1, hw, hx, hn, r.clear]

theorem simple_ready {i : Instr} {s : State} {c : Ctx} (r : Ready i s c) {extra : Ctx → List Trap} {effect : Ctx → State}
    (hx : extra c = []) : simple i s extra effect = .next (effect c) :=
  perform_ready r rfl hx rfl

/-- Accepted tags raise no trap. -/
theorem Ctx.accept_nil {c : Ctx} {x : BitVec 6} {n : Nat} {ok : BitVec 5 → Bool} (h : c.takes x n ok) : c.accept x n ok = [] := by
  rw [Ctx.accept, List.filterMap_eq_nil_iff]
  intro i hi
  cases ht : c.tagOf x i with
  | none => rfl
  | some t => simp [h i (List.mem_range.mp hi) t ht]

/-! ### What the issue of an instruction leaves in its group -/

@[simp] theorem Group.live_setLive (g : Group) (b : Bool) (e : Entry) : (g.setLive b e).live b = e := by
  cases b <;> rfl

@[simp] theorem Group.live_setLive_not (g : Group) (b : Bool) (e : Entry) : (g.setLive b e).live (!b) = g.live (!b) := by
  cases b <;> rfl

/-- An instruction that retires leaves only its group changed. -/
theorem Ctx.only_retire {s : State} {c : Ctx} (h : issuing s = some c) (g : Group) (stall : Nat) :
    Only c s (c.retire g stall) (((g.advance c.slot).issued c.slot c.now stall).noteLater c.f.mask) := by
  obtain ⟨hs, -⟩ := issuing_some h
  subst hs
  exact ⟨rfl, fun a => rfl⟩

/-- `h` is `g` but for what an issue itself keeps in its group, with the fragment of `slot` at the next word. -/
theorem Group.retired_live (g : Group) (slot : Bool) (now stall : Nat) (m : Mask) :
    (((g.advance slot).issued slot now stall).noteLater m).live slot = { g.live slot with pc := (g.live slot).pc.next } := by
  cases slot <;> rfl

theorem Group.retired_other (g : Group) (slot : Bool) (now stall : Nat) (m : Mask) :
    (((g.advance slot).issued slot now stall).noteLater m).live (!slot) = g.live (!slot) := by
  cases slot <;> rfl

/-- What a retirement keeps of a group: everything but the fragments, the stall count, the slot that issued last, the count of
instructions, results in flight and the mark on a geometric instruction. -/
theorem Group.retired_keeps (g : Group) (slot : Bool) (now stall : Nat) (m : Mask) :
    { ((g.advance slot).issued slot now stall).noteLater m with
      live0 := g.live0, live1 := g.live1, readyAt := g.readyAt, lastSlot := g.lastSlot, issues := g.issues, hazards := g.hazards, geoOp := g.geoOp } = g := by
  cases g
  cases slot <;> rfl

theorem Group.retired_readyAt (g : Group) (slot : Bool) (now stall : Nat) (m : Mask) :
    (((g.advance slot).issued slot now stall).noteLater m).readyAt = now + 1 + stall := by
  cases slot <;> rfl

end Sys2Proof.Machine
end

