-- ==== Sys2Proof/Laws/Lanes.lean ====
section
/-! SUPPORT. Writing lane lines, predicates and uniform registers: what each write sets and what it leaves, and the completion of an
instruction that only writes registers. -/

namespace Sys2Proof.Machine

/-! ### One write -/

theorem Group.line_setLine (g : Group) (n k : Nat) (x : Lanes Word) :
    (g.setLine n x).line k = if k % 256 = n % 256 then x else g.line k := by
  simp [Group.line, Group.setLine, Assoc.get_set]

theorem Group.tagByte_setTag (g : Group) (n k : Nat) (t : BitVec 5) :
    (g.setTag n t).tagByte k = if k = n then t.zeroExtend 8 else g.tagByte k := by
  simp [Group.tagByte, Group.setTag, Assoc.get_set]

/-- The lines after a lane write. -/
theorem Group.line_writeLine (g : Group) (n : Nat) (m : Mask) (x : Lanes Word) (t : BitVec 5) (now lat k : Nat) :
    (g.writeLine n m x t now lat).line k = if k % 256 = n % 256 then mergeLanesOf m x (g.line n) else g.line k :=
  Group.line_setLine _ n k _

/-- The tags after a lane write. -/
theorem Group.tagByte_writeLine (g : Group) (n : Nat) (m : Mask) (x : Lanes Word) (t : BitVec 5) (now lat k : Nat) :
    (g.writeLine n m x t now lat).tagByte k = if k = n then t.zeroExtend 8 else g.tagByte k :=
  Group.tagByte_setTag _ n k t

/-! ### Writes of several registers -/

/-- `h` is `g` but for registers, tags, results in flight, poison marks and the presence of lane lines. -/
structure Group.RegsOnly (g h : Group) : Prop where
  rest : h = { g with
    lines := h.lines, ltags := h.ltags, k := h.k, p := h.p, q := h.q, hazards := h.hazards, frec := h.frec
    imgPoison := h.imgPoison, absent := h.absent }
  record : h.frec = { g.frec with ppoisv := h.frec.ppoisv, ppoisk := h.frec.ppoisk }

theorem Group.RegsOnly.refl (g : Group) : g.RegsOnly g := ⟨rfl, rfl⟩

theorem Group.RegsOnly.trans {g h i : Group} (a : g.RegsOnly h) (b : h.RegsOnly i) : g.RegsOnly i := by
  constructor
  · have h1 := b.rest
    rw [a.rest] at h1
    exact h1
  · have h1 := b.record
    rw [a.record] at h1
    exact h1

theorem Group.RegsOnly.writeLine (g : Group) (n : Nat) (m : Mask) (x : Lanes Word) (t : BitVec 5) (now lat : Nat) :
    g.RegsOnly (g.writeLine n m x t now lat) := by
  refine ⟨?_, ?_⟩
  · simp only [Group.writeLine]
  · simp only [Group.writeLine]
    split <;> rfl

theorem Group.RegsOnly.writeK (g : Group) (n : Nat) (x : Word) (now lat : Nat) : g.RegsOnly (g.writeK n x now lat) := ⟨rfl, rfl⟩

theorem Group.RegsOnly.landK (g : Group) (n : Nat) (x : Word) : g.RegsOnly (g.landK n x) := ⟨rfl, rfl⟩

theorem Group.RegsOnly.writeP (g : Group) (n : Nat) (m x : Mask) (now lat : Nat) : g.RegsOnly (g.writeP n m x now lat) := by
  simp only [Group.writeP]
  split
  · exact Group.RegsOnly.refl g
  · exact ⟨rfl, rfl⟩

theorem Group.RegsOnly.writeQ (g : Group) (n : Nat) (b : Bool) (now lat : Nat) : g.RegsOnly (g.writeQ n b now lat) := by
  simp only [Group.writeQ]
  split
  · exact Group.RegsOnly.refl g
  · exact ⟨rfl, rfl⟩

theorem Group.RegsOnly.live {g h : Group} (e : g.RegsOnly h) (b : Bool) : h.live b = g.live b := by
  have h0 := congrArg Group.live0 e.rest
  have h1 := congrArg Group.live1 e.rest
  cases b
  · exact h0
  · exact h1

/-- The group after the results of a lane instruction, one after another. -/
def writesOf (g : Group) (base : Nat) (m : Mask) (now lat : Nat) (rs : List (Nat × Lanes Word × BitVec 5)) : Group :=
  rs.foldl (fun h r => h.writeLine (base + r.1) m r.2.1 r.2.2 now lat) g

theorem writesOf_regsOnly (base : Nat) (m : Mask) (now lat : Nat) (rs : List (Nat × Lanes Word × BitVec 5)) (g : Group) :
    g.RegsOnly (writesOf g base m now lat rs) := by
  induction rs generalizing g with
  | nil => exact Group.RegsOnly.refl g
  | cons r t ih => exact (Group.RegsOnly.writeLine g _ _ _ _ _ _).trans (ih _)

/-- Lane writes leave uniform registers and predicates alone. -/
theorem writesOf_others (base : Nat) (m : Mask) (now lat : Nat) (rs : List (Nat × Lanes Word × BitVec 5)) (g : Group) :
    (writesOf g base m now lat rs).k = g.k ∧ (writesOf g base m now lat rs).p = g.p ∧ (writesOf g base m now lat rs).q = g.q := by
  induction rs generalizing g with
  | nil => exact ⟨rfl, rfl, rfl⟩
  | cons r t ih => exact ih (g.writeLine _ _ _ _ _ _)

theorem writesOf_line_other (base : Nat) (m : Mask) (now lat : Nat) (rs : List (Nat × Lanes Word × BitVec 5)) (g : Group) (k : Nat)
    (h : ∀ r ∈ rs, k % 256 ≠ (base + r.1) % 256) : (writesOf g base m now lat rs).line k = g.line k := by
  induction rs generalizing g with
  | nil => rfl
  | cons r t ih =>
    have h1 := h r (by simp)
    have h2 := ih (g.writeLine (base + r.1) m r.2.1 r.2.2 now lat) (fun r hr => h r (by simp [hr]))
    rw [Group.line_writeLine, if_neg h1] at h2
    exact h2

theorem writesOf_tag_other (base : Nat) (m : Mask) (now lat : Nat) (rs : List (Nat × Lanes Word × BitVec 5)) (g : Group) (k : Nat)
    (h : ∀ r ∈ rs, k ≠ base + r.1) : (writesOf g base m now lat rs).tagByte k = g.tagByte k := by
  induction rs generalizing g with
  | nil => rfl
  | cons r t ih =>
    have h1 := h r (by simp)
    have h2 := ih (g.writeLine (base + r.1) m r.2.1 r.2.2 now lat) (fun r hr => h r (by simp [hr]))
    rw [Group.tagByte_writeLine, if_neg h1] at h2
    exact h2

/-- The presence of lines after a lane write. -/
theorem Group.present_writeLine (g : Group) (n : Nat) (m : Mask) (x : Lanes Word) (t : BitVec 5) (now lat k : Nat)
    (h : k % 256 ≠ n % 256) : (g.writeLine n m x t now lat).present (.v k) = g.present (.v k) := by
  simp only [Group.present, Group.writeLine]
  split
  · have hk : k % 256 < 256 := Nat.mod_lt _ (by decide)
    have hn : n % 256 < 256 := Nat.mod_lt _ (by decide)
    rw [BitVec.getLsbD_and, BitVec.getLsbD_not, BitVec.getLsbD_ofNat, Nat.testBit_two_pow]
    simp [hk, Ne.symm h]
  · rfl

theorem writesOf_present_other (base : Nat) (m : Mask) (now lat : Nat) (rs : List (Nat × Lanes Word × BitVec 5)) (g : Group) (k : Nat)
    (h : ∀ r ∈ rs, k % 256 ≠ (base + r.1) % 256) : (writesOf g base m now lat rs).present (.v k) = g.present (.v k) := by
  induction rs generalizing g with
  | nil => rfl
  | cons r t ih =>
    exact (ih (g.writeLine (base + r.1) m r.2.1 r.2.2 now lat) (fun r hr => h r (by simp [hr]))).trans
      (Group.present_writeLine g _ _ _ _ _ _ _ (h r (by simp)))

/-- Destination registers that are window registers and distinct are distinct lines. -/
def distinctDests (rs : List (Nat × Lanes Word × BitVec 5)) : Prop :=
  (rs.map (fun r => r.1)).Nodup ∧ ∀ r ∈ rs, r.1 < 256

theorem writesOf_result (base : Nat) (m : Mask) (now lat : Nat) (rs : List (Nat × Lanes Word × BitVec 5)) (g : Group)
    (d : distinctDests rs) : ∀ r ∈ rs,
      (writesOf g base m now lat rs).tagByte (base + r.1) = r.2.2.zeroExtend 8 ∧
      (writesOf g base m now lat rs).line (base + r.1) = mergeLanesOf m r.2.1 (g.line (base + r.1)) := by
  induction rs generalizing g with
  | nil => intro r hr; cases hr
  | cons x t ih =>
    intro r hr
    obtain ⟨nd, lt⟩ := d
    simp only [List.map_cons, List.nodup_cons] at nd
    have dt : distinctDests t := ⟨nd.2, fun r hr => lt r (by simp [hr])⟩
    have far : ∀ y ∈ t, x.1 ≠ y.1 := fun y hy e => nd.1 (List.mem_map.mpr ⟨y, hy, e.symm⟩)
    rcases List.mem_cons.mp hr with hr | hr
    · subst hr
      have hx : r.1 < 256 := lt r (by simp)
      constructor
      · have := writesOf_tag_other base m now lat t (g.writeLine (base + r.1) m r.2.1 r.2.2 now lat) (base + r.1)
          (fun y hy => by have := far y hy; omega)
        rw [Group.tagByte_writeLine, if_pos rfl] at this
        exact this
      · have := writesOf_line_other base m now lat t (g.writeLine (base + r.1) m r.2.1 r.2.2 now lat) (base + r.1)
          (fun y hy => by have := far y hy; have := lt y (by simp [hy]); omega)
        rw [Group.line_writeLine, if_pos rfl] at this
        exact this
    · have h1 := ih (g.writeLine (base + x.1) m x.2.1 x.2.2 now lat) dt r hr
      have hx : x.1 < 256 := lt x (by simp)
      have hr' : r.1 < 256 := lt r (by simp [hr])
      have hne := far r hr
      have hl : ¬ (base + r.1) % 256 = (base + x.1) % 256 := by omega
      rw [Group.line_writeLine, if_neg hl] at h1
      exact h1

/-- WHAT A REGISTER INSTRUCTION LEAVES when it retires with its results in `h`. -/
theorem retire_keeps {s : State} {c : Ctx} (hc : issuing s = some c) {h : Group} (e : c.g.RegsOnly h) (stall : Nat) (ch : Changed)
    (lines : ∀ n, (∀ x ∈ ch.v, n % 256 ≠ (c.g.lbase + x) % 256) → h.line n = c.g.line n)
    (tags : ∀ n, (∀ x ∈ ch.v, n ≠ c.g.lbase + x) → h.tagByte n = c.g.tagByte n)
    (k : ∀ n, n ∉ ch.k → h.kreg n = c.g.kreg n) (p : ∀ n, n ∉ ch.p → h.preg n = c.g.preg n)
    (q : ∀ n, n ∉ ch.q → h.qbit n = c.g.qbit n)
    (there : ∀ n, (∀ x ∈ ch.v, n % 256 ≠ (c.g.lbase + x) % 256) → h.present (.v n) = c.g.present (.v n)) :
    ∃ g', Only c s (c.retire h stall) g' ∧ Advanced c g' stall ∧ Keeps c g' ch ∧
      g'.lines = h.lines ∧ g'.ltags = h.ltags ∧ g'.k = h.k ∧ g'.p = h.p ∧ g'.q = h.q := by
  obtain ⟨-, hf, -⟩ := issuing_some hc
  refine ⟨_, Ctx.only_retire hc h stall, ⟨?_, Group.retired_readyAt _ _ _ _ _⟩, ⟨?_, ?_, ?_, ?_, ?_, ?_, ?_, ?_, ?_, ?_⟩, ?_⟩
  · rw [Group.retired_live, e.live, hf]
  · intro n hn
    have := lines n hn
    cases c.slot <;> exact this
  · intro n hn
    have := tags n hn
    cases c.slot <;> exact this
  · intro n hn
    have := k n hn
    cases c.slot <;> exact this
  · intro n hn
    have := p n hn
    cases c.slot <;> exact this
  · intro n hn
    have := q n hn
    cases c.slot <;> exact this
  · intro _
    have h1 := congrArg Group.fexc e.rest
    have h2 := congrArg Group.fnan e.rest
    cases c.slot <;> exact ⟨h1, h2⟩
  · have h1 := e.rest
    cases c.slot <;> rw [h1] <;> rfl
  · intro n hn
    have := there n hn
    cases c.slot <;> exact this
  · have := e.record
    cases c.slot <;> exact this
  · rw [Group.retired_other, e.live]
  · cases c.slot <;> exact ⟨rfl, rfl, rfl, rfl, rfl⟩

/-- WHAT A LANE INSTRUCTION DOES when it is ready: its results stand in the acting lanes of distinct destination registers. -/
theorem lanes_complete {i : Instr} {s : State} {c : Ctx} (r : Ready i s c) (rs : List (Nat × Lanes Word × BitVec 5)) (lat : Nat)
    (d : distinctDests rs) (e : exec i s = .next (c.retire (writesOf c.g c.g.lbase (c.acting i) c.now lat rs) (shapeOf c.g i).stall)) :
    ∃ t g', exec i s = .next t ∧ Only c s t g' ∧ Advanced c g' (shapeOf c.g i).stall ∧
      Keeps c g' { v := rs.map (fun r => r.1) } ∧
      ∀ r ∈ rs, g'.tagByte (c.g.lbase + r.1) = r.2.2.zeroExtend 8 ∧
        ∀ l : Fin 32, (g'.line (c.g.lbase + r.1))[l] =
          if (c.acting i).getLsbD l.val then r.2.1[l] else (c.g.line (c.g.lbase + r.1))[l] := by
  obtain ⟨ek, ep, eq⟩ := writesOf_others c.g.lbase (c.acting i) c.now lat rs c.g
  have hR := writesOf_result c.g.lbase (c.acting i) c.now lat rs c.g d
  obtain ⟨g', h1, h2, h3, hl, ht, -, -, -⟩ := retire_keeps r.issuing (writesOf_regsOnly c.g.lbase (c.acting i) c.now lat rs c.g)
    (shapeOf c.g i).stall { v := rs.map (fun r => r.1) }
    (fun n hn => writesOf_line_other c.g.lbase (c.acting i) c.now lat rs c.g n (fun x hx => hn _ (List.mem_map.mpr ⟨x, hx, rfl⟩)))
    (fun n hn => writesOf_tag_other c.g.lbase (c.acting i) c.now lat rs c.g n (fun x hx => hn _ (List.mem_map.mpr ⟨x, hx, rfl⟩)))
    (fun n _ => by simp [Group.kreg, ek]) (fun n _ => by simp [Group.preg, ep]) (fun n _ => by simp [Group.qbit, eq])
    (fun n hn => writesOf_present_other c.g.lbase (c.acting i) c.now lat rs c.g n (fun x hx => hn _ (List.mem_map.mpr ⟨x, hx, rfl⟩)))
  refine ⟨_, g', e, h1, h2, h3, fun x hx => ?_⟩
  obtain ⟨r1, r2⟩ := hR x hx
  constructor
  · simpa [Group.tagByte, ht] using r1
  · intro l
    have h4 := congrArg (fun v : Lanes Word => v[l]) r2
    simp only [mergeLanesOf, Lanes.getElem_ofFn] at h4
    simpa [Group.line, hl] using h4

/-- WHAT `laneInstr` DOES: a lane instruction whose checks pass completes with its results. -/
theorem laneInstr_writes {i : Instr} {checks : Ctx → List Trap} {res : Ctx → List LaneResult} {ok : Ctx → Prop}
    {rs : Ctx → List LaneWrite} (hx : ∀ s, exec i s = laneInstr i s checks res)
    (hc : ∀ s c, Ready i s c → ok c → checks c = [])
    (hr : ∀ c, res c = (rs c).map (fun r => (r.1, Lanes.ofFn r.2.1, r.2.2)))
    (hd : ∀ c, i.wellFormed = true → ((rs c).map (fun r => r.1)).Nodup ∧ ∀ r ∈ rs c, r.1 < 256) : WritesLanes i ok rs := by
  intro s c r hok
  obtain ⟨nd, lt⟩ := hd c r.legal
  have d : distinctDests (res c) := by
    rw [hr c]
    refine ⟨by simpa [List.map_map, Function.comp_def] using nd, fun x hx => ?_⟩
    obtain ⟨y, hy, rfl⟩ := List.mem_map.mp hx
    exact lt y hy
  have e : exec i s = .next (c.retire (writesOf c.g c.g.lbase (c.acting i) c.now (shapeOf c.g i).latency (res c)) (shapeOf c.g i).stall) := by
    rw [hx, laneInstr, simple_ready r (hc s c r hok)]
    rfl
  obtain ⟨t, g', h1, h2, h3, h4, h5⟩ := lanes_complete r (res c) (shapeOf c.g i).latency d e
  refine ⟨t, g', h1, h2, h3, ?_, fun x hx => ?_⟩
  · have : (res c).map (fun r => r.1) = (rs c).map (fun r => r.1) := by rw [hr c]; simp [List.map_map, Function.comp_def]
    rw [this] at h4
    exact h4
  · have h6 := h5 (x.1, Lanes.ofFn x.2.1, x.2.2) (by rw [hr c]; exact List.mem_map.mpr ⟨x, hx, rfl⟩)
    refine ⟨h6.1, fun l => ?_⟩
    have h7 := h6.2 l
    simp only [Lanes.getElem_ofFn] at h7
    exact h7

/-! ### Uniform registers and predicates -/

theorem Group.kreg_setIfInBounds (g : Group) (n m : Nat) (x : Word) (h : n < 32) :
    (g.k.setIfInBounds n x).toList.getD m 0 = if m = n then x else g.kreg m := by
  by_cases e : m = n
  · subst e
    simp [List.getD, Vector.toList, h]
  · have e' : n ≠ m := fun x => e x.symm
    simp [Group.kreg, List.getD, Vector.toList, e, e']

theorem Group.kreg_writeK (g : Group) (n m : Nat) (x : Word) (now lat : Nat) (h : n < 32) :
    (g.writeK n x now lat).kreg m = if m = n then x else g.kreg m := Group.kreg_setIfInBounds g n m x h

theorem Group.kreg_landK (g : Group) (n m : Nat) (x : Word) (h : n < 32) :
    (g.landK n x).kreg m = if m = n then x else g.kreg m := Group.kreg_setIfInBounds g n m x h

/-- WHAT `uniInstr` DOES. -/
theorem uniInstr_writes {i : Instr} {d : BitVec 5} {f : Ctx → Word} (hx : ∀ s, exec i s = uniInstr i s d f) :
    WritesUniform i (fun c => [(d.toNat, f c)]) := by
  intro s c r
  have hd : d.toNat < 32 := d.isLt
  have e : exec i s = .next (c.retire (c.g.writeK d.toNat (f c) c.now (shapeOf c.g i).latency) (shapeOf c.g i).stall) := by
    rw [hx, uniInstr, simple_ready r rfl]
  obtain ⟨g', h1, h2, h3, -, -, hk, -, -⟩ := retire_keeps r.issuing
    (Group.RegsOnly.writeK c.g d.toNat (f c) c.now (shapeOf c.g i).latency) (shapeOf c.g i).stall { k := [d.toNat] }
    (fun n _ => rfl) (fun n _ => rfl)
    (fun n hn => by rw [Group.kreg_writeK _ _ _ _ _ _ hd, if_neg (by simpa using hn)])
    (fun n _ => rfl) (fun n _ => rfl) (fun n _ => rfl)
  refine ⟨_, g', e, h1, h2, h3, fun x hx => ?_⟩
  simp only [List.mem_singleton] at hx
  subst hx
  have h4 := Group.kreg_writeK c.g d.toNat d.toNat (f c) c.now (shapeOf c.g i).latency hd
  rw [if_pos rfl] at h4
  simpa [Group.kreg, hk] using h4

end Sys2Proof.Machine
end

