-- ==== Sys2Proof/Tests/Slice0.lean ====
section
/-! SUPPORT. Tests: the well-formedness checks refuse an ill-formed term each; words that the spec's examples write out decode to their
instructions; every instruction is ready somewhere; single steps with the results of the spec's examples or of hand calculation; states that
meet the premises of the statements. -/

namespace Sys2Proof.Tests

open Sys2Proof.Machine

/-! ### Well-formedness (14 R316; 04 R79, R80; 15 to 18) -/

/-- One term for each check. -/
def illFormed : List Instr := [
  .iadd 48 0 0 7 0, .movi 63 0 0, .itestD 0 0 1 2 7 0, .add64 1 2 4 7 0, .add64 2 3 4 7 0, .slane 0 0 0 4 0, .frnd 0 0 3 5 0,
  .tag 1 2 4 0, .orient2 8 8 0 0 0 0, .orient2 40 9 0 0 0 0, .orient3 0 40 0 0 0 0, .orient2 40 0 1 0 0 0, .ldD 1 2 0 7, .ldQ 2 4 0 7,
  .lda 0 2 6 0 7, .lda 0 2 3 3 7, .stOf 1 2 1 7, .casD 2 4 6 7, .uadd64 1 2 4 3 0, .usetp 4 0 0 0 3 0, .usel 0 0 0 3 3 0, .uldW 0 1 0 0,
  .rfal 0 48 7 0 0, .vlane 0 1 0 0 0, .call 6 0, .grow 7, .srd 0 2 0x000 0, .srd 1 0 0x008 0, .swr 0 0x001 0, .tagr 0 8 1 0,
  .barInit 0 1 0 3 0, .barArv 0 2 6 3 0, .fence 7 3 0, .copy2d 2 4 6 0, .mma 0 2 4 0 0 0, .mma 0 4 8 1 0 0, .hadt 0 0 0 3,
  .qtile 4 8 0 0 0 0, .zcvt 0 0 0 2, .cancel 0 2 5 3 0, .ccwait 0 2 2 3 0, .cctl 2 0 3 3 0]

theorem test_illFormed_refused : illFormed.all (fun i => !i.wellFormed) = true := by decide

/-! ### Decoding: the words of the spec's examples -/

/-- Lane integer and float instructions, as the entries of 15 to 18 write their examples. -/
def laneWords : List (Nat × Instr) := [
  (0x140C3FF8, .andi 3 3 0x1FF 0), (0x030C3FF8, .iaddi 3 3 0x1FF 0), (0x2A1420F8, .idot4 5 2 3 7 0), (0x2D7841B8, .itestD 3 6 4 6 7 0),
  (0x0E2841B8, .lea 10 4 6 7 0), (0x261F3038, .mov 7 51 7 0), (0x270FFFF8, .movi 3 0x7FFF 0), (0x13083038, .not 2 3 7 0),
  (0x111461F8, .or 5 6 7 7 0), (0x15082800, .ori 2 2 0x100 0), (0x1E0C9038, .popc 3 9 7 0), (0x2C1420F8, .pswz 5 2 3 7 0),
  (0x1D1050F8, .sari 4 5 31 0), (0x251820C8, .sel 6 2 3 1 0), (0x181051B8, .shl 4 5 6 7 0), (0x1B105018, .shli 4 5 3 0),
  (0x28144C08, .slane 5 4 48 1 0), (0x121461F8, .xor 5 6 7 7 0), (0x16082FF8, .xori 2 2 0x1FF 0), (0x45284380, .fcvt 10 4 7 0 0),
  (0x46306610, .icvt 12 6 0x0C 1 0), (0x332041BB, .fma 8 4 6 7 3), (0x3A2820F8, .ftest 1 2 2 3 7 0), (0x47104180, .tag 4 4 3 0)]

theorem test_decode_lane : laneWords.all (fun x => decide (decodeWord x.1 = .ok x.2)) = true := by decide

/-- Geometric instructions and lane memory. -/
def memoryWords : List (Nat × Instr) := [
  (0x52788000, .incirc 30 8 0 0 0 0), (0x53500008, .insph 20 0 0 0 0 1), (0x50508D20, .orient2 20 8 52 1 0 0),
  (0x51504008, .orient3 20 4 0 0 0 1), (0x54A08000, .segx 40 8 0 0 0 0), (0x64284207, .ldW 10 4 64 7), (0x6A284047, .stW 10 4 8 7),
  (0x6E106607, .lda 4 6 3 0 7), (0x6F204607, .stl 8 4 3 0 7), (0x6D204A07, .stOf 8 4 0 7), (0x73106218, .casD 4 6 8 3),
  (0x74044407, .pref 1 4 128 7)]

theorem test_decode_memory : memoryWords.all (fun x => decide (decodeWord x.1 = .ok x.2)) = true := by decide

/-- Uniform instructions, control and special registers. -/
def uniformWords : List (Nat × Instr) := [
  (0xA0300040, .uldW 6 0 8 0), (0xA2100020, .ustW 2 0 4 0), (0xA4212020, .rfal 4 9 1 0 0), (0xA52126E0, .rdl 4 9 6 0),
  (0xA6180048, .vlane 3 0 2 1 0), (0xA61920F0, .vlane 3 9 7 2 0), (0xB07FFFFC, .bra 1 0x3FFFFC), (0xB4200000, .grow 1),
  (0xB6280018, .ovld 5 3 0), (0xB8000018, .ovret 3 0), (0xB9000018, .exit 3 0), (0xBA000010, .trap 2 0), (0xBC000018, .yield 3 0),
  (0xC0040081, .srd 0 2 2 1), (0xC0860000, .srd 1 3 0 0), (0xC10A0400, .swr 5 0x010 0), (0xC22120E0, .tagr 4 9 0 0),
  (0xC22060E8, .tagr 4 3 1 0)]

theorem test_decode_uniform : uniformWords.all (fun x => decide (decodeWord x.1 = .ok x.2)) = true := by decide

/-- Synchronisation, engines, matrix and launch instructions. -/
def engineWords : List (Nat × Instr) := [
  (0xC9310018, .racq 6 4 3 0), (0xCA310E18, .rpub 6 4 7 3 0), (0xCB310018, .rtake 6 4 3 0), (0xCC310018, .rrel 6 4 3 0),
  (0xCD001010, .waitc 1 2 0), (0xCE0000B8, .fence 5 3 0), (0xCF000018, .fencer 3 0), (0xD0410018, .mcas 8 4 3 0),
  (0xD1208C03, .atomu 4 2 6 0 3), (0xD8010C80, .copy 4 6 8 0), (0xDB010C80, .scatter 4 6 8 0), (0xDC010C80, .fill 4 6 8),
  (0xE0444000, .mma 2 4 8 0 0 0), (0xE1400110, .hadt 2 1 0 1), (0xE2004340, .qtile 0 8 3 0 1 0), (0xE3640000, .zld 3 4 0),
  (0xE4040200, .zst 4 2), (0xE5080100, .zsta 8 1), (0xE6A00010, .zzero 5 1), (0xE7400200, .zcvt 2 2 0 0), (0xE8200010, .zmov 1 0 1),
  (0xE9040000, .tpref 4), (0xF0310018, .launch 6 4 3 0), (0xF1410038, .cancel 8 4 1 3 0), (0xF2310018, .ccwait 6 4 0 3 0),
  (0xF3208C18, .alloc 4 2 6 3 0), (0xF4188C18, .free 3 2 6 3 0)]

theorem test_decode_engines : engineWords.all (fun x => decide (decodeWord x.1 = .ok x.2)) = true := by decide

/-! ### The premise that an instruction is ready -/

/-- The state whose next step fetches an instruction. -/
def placed (i : Instr) : State :=
  match encode i with
  | some w => State.reset.withFetchWord 32 w
  | none => State.reset

/-- Whether an instruction is ready where it is placed. -/
def isReady (i : Instr) : Bool :=
  match issuing (placed i) with
  | some c => i.wellFormed && decide (c.g.role ∈ (shapeOf c.g i).roles) && c.scoreboard (shapeOf c.g i) &&
      !c.holdsBack i && c.guardOn (shapeOf c.g i).guard && decide (c.sourceTraps (shapeOf c.g i) = [])
  | none => false

theorem ready_of_isReady {i : Instr} (h : isReady i = true) : ∃ c, Ready i (placed i) c := by
  unfold isReady at h
  split at h
  · rename_i c hc
    simp only [Bool.and_eq_true, decide_eq_true_eq, Bool.not_eq_true'] at h
    exact ⟨c, hc, h.1.1.1.1.1, h.1.1.1.1.2, h.1.1.1.2, h.1.1.2, h.1.2, h.2⟩
  · cases h

/-- One term of each instruction of the family. -/
def laneInteger : List Instr := [
  .iadd 0 0 0 7 0, .isub 0 0 0 7 0, .iaddi 0 0 0 0, .imul 0 0 0 7 0, .imulh 0 0 0 7 0, .imulhU 0 0 0 7 0, .imad 0 0 0 7 0,
  .imin 0 0 0 7 0, .iminU 0 0 0 7 0, .imax 0 0 0 7 0, .imaxU 0 0 0 7 0, .iabs 0 0 7 0, .add64 0 0 0 7 0, .lea 0 0 0 7 0,
  .leaD 0 0 0 7 0, .and 0 0 0 7 0, .or 0 0 0 7 0, .xor 0 0 0 7 0, .not 0 0 7 0, .andi 0 0 0 0, .ori 0 0 0 0, .xori 0 0 0 0,
  .iaddSat 0 0 0 7 0, .shl 0 0 0 7 0, .shr 0 0 0 7 0, .sar 0 0 0 7 0, .shli 0 0 0 0, .shri 0 0 0 0, .sari 0 0 0 0, .popc 0 0 7 0,
  .clz 0 0 7 0, .brev 0 0 7 0, .bfe 0 0 0 7 0, .bfeS 0 0 0 7 0, .bfi 0 0 0 7 0, .itest 0 0 0 0 7 0, .sel 0 0 0 0 0, .mov 0 0 7 0,
  .movi 0 0 0, .slane 0 0 0 0 0, .isubSat 0 0 0 7 0, .idot4 0 0 0 7 0, .idot8 0 0 0 7 0, .pswz 0 0 0 7 0, .itestD 0 0 0 0 7 0]

theorem test_ready_lane_integer : laneInteger.all isReady = true := by decide

/-- One term of each instruction of the family. -/
def laneFloat : List Instr := [
  .fadd 0 0 0 7 0, .fsub 0 0 0 7 0, .fmul 0 0 0 7 0, .fma 0 0 0 7 0, .fms 0 0 0 7 0, .fnma 0 0 0 7 0, .fmin 0 0 0 7 0,
  .fmax 0 0 0 7 0, .fabs 0 0 7 0, .fneg 0 0 7 0, .ftest 0 0 0 0 7 0, .fclass 0 0 7 0, .frcp 0 0 7 0, .frsq 0 0 7 0,
  .fsqrt 0 0 7 0, .fexp2 0 0 7 0, .flog2 0 0 7 0, .fsin 0 0 7 0, .fcos 0 0 7 0, .frnd 0 0 0 0 0, .fscl 0 0 0 7 0,
  .fcvt 0 0 0 0 0, .icvt 0 0 0 0 0, .tag 0 0 0 0, .fdot2 0 0 0 7 0, .fdot4 0 0 0 7 0]

theorem test_ready_lane_float : laneFloat.all isReady = true := by decide

/-- One term of each instruction of the family. -/
def laneMemory : List Instr := [
  .orient2 40 0 0 0 0 0, .orient3 40 0 0 0 0 0, .incirc 40 0 0 0 0 0, .insph 40 0 0 0 0 0, .segx 40 0 0 0 0 0, .ldB 0 0 0 7,
  .ldBs 0 0 0 7, .ldH 0 0 0 7, .ldHs 0 0 0 7, .ldW 0 0 0 7, .ldD 0 0 0 7, .ldQ 0 0 0 7, .ldNt 0 0 0 7, .stB 0 0 0 7,
  .stH 0 0 0 7, .stW 0 0 0 7, .stD 0 0 0 7, .stQ 0 0 0 7, .stOf 0 0 0 7, .lda 0 0 0 0 7, .stl 0 0 0 0 7, .atomW 0 0 0 0 0,
  .atomD 0 0 0 0 0, .casW 0 0 0 0, .casD 0 0 0 0, .pref 0 0 0 7]

theorem test_ready_lane_memory : laneMemory.all isReady = true := by decide

/-- One term of each instruction of the family. -/
def uniformInteger : List Instr := [
  .nop 0, .uadd 0 0 0 3 0, .usub 0 0 0 3 0, .uaddi 0 0 0 0, .umul 0 0 0 3 0, .umulh 0 0 0 3 0, .umulhU 0 0 0 3 0,
  .uadd64 0 0 0 3 0, .uand 0 0 0 3 0, .uor 0 0 0 3 0, .uxor 0 0 0 3 0, .uandi 0 0 0 0, .uori 0 0 0 0, .ushl 0 0 0 3 0,
  .ushr 0 0 0 3 0, .usar 0 0 0 3 0, .ushli 0 0 0 0, .ushri 0 0 0 0, .umin 0 0 0 3 0, .uminU 0 0 0 3 0, .umax 0 0 0 3 0,
  .umaxU 0 0 0 3 0, .usetp 0 0 0 0 3 0, .usel 0 0 0 0 3 0, .umov 0 0 3 0, .umovi 0 0 0, .ului 0 0 0, .upopc 0 0 3 0,
  .uclz 0 0 3 0, .ubfe 0 0 0 0 3 0, .ubfi 0 0 0 0, .umad 0 0 0 0, .uldW 0 0 0 0, .uldD 0 0 0 0, .ustW 0 0 0 0, .ustD 0 0 0 0]

theorem test_ready_uniform_integer : uniformInteger.all isReady = true := by decide

/-- One term of each instruction of the family. -/
def uniformMemory : List Instr := [
  .rfal 0 0 0 0 0, .rdl 0 0 0 0, .vlane 0 0 0 0 0, .uldH 0 0 0 0, .ustH 0 0 0 0, .uldB 0 0 0 0, .ustB 0 0 0 0]

theorem test_ready_uniform_memory : uniformMemory.all isReady = true := by decide

/-- One term of each instruction of the family. -/
def control : List Instr := [
  .bra 3 0, .brp 0 0 0, .call 0 0, .ret 3 0, .grow 0, .shrink 3 0, .ovld 0 0 0, .ovcall 3 0, .ovret 3 0, .exit 3 0, .trap 0 0,
  .bkpt 0 0, .yield 3 0, .brx 0 3 0, .callx 0 0 3 0]

theorem test_ready_control : control.all isReady = true := by decide

/-- One term of each instruction of the family. -/
def specialAndSync : List Instr := [
  .srd 0 2 0x002 1, .swr 5 0x010 0, .tagr 0 0 0 0, .barInit 0 0 0 3 0, .barArv 0 0 0 3 0, .barWait 0 0 0 3 0, .barArw 0 0 0 3 0,
  .barTest 0 0 0 0 3 0, .racq 0 0 3 0, .rpub 0 0 0 3 0, .rtake 0 0 3 0, .rrel 0 0 3 0, .waitc 0 0 0, .fence 0 3 0, .fencer 3 0,
  .mcas 0 0 3 0, .atomu 0 0 0 0 0, .casu 0 0 0 0 0]

theorem test_ready_special_and_sync : specialAndSync.all isReady = true := by decide

/-- One term of each instruction of the family. -/
def copy : List Instr := [
  .copy 0 0 0 0, .copy2d 0 0 0 0, .gather 0 0 0 0, .scatter 0 0 0 0, .fill 0 0 0, .copyr 0 0 0 0]

theorem test_ready_copy : copy.all isReady = true := by decide

/-- One term of each instruction of the family. -/
def matrix : List Instr := [
  .mma 0 0 0 0 0 0, .hadt 0 0 0 0, .qtile 0 0 0 0 0 0, .zld 0 0 0, .zst 0 0, .zsta 0 0, .zzero 0 0, .zcvt 0 0 0 0, .zmov 0 0 0,
  .tpref 0]

theorem test_ready_matrix : matrix.all isReady = true := by decide

/-- One term of each instruction of the family. -/
def launch : List Instr := [
  .launch 0 0 3 0, .cancel 0 0 0 3 0, .ccwait 0 0 0 3 0, .alloc 0 0 0 3 0, .free 0 0 0 3 0, .dbell 0 0 0 3 0, .cctl 0 0 0 3 0]

theorem test_ready_launch : launch.all isReady = true := by decide

/-! ### Single steps -/

/-- The state that fetches word `w` next, its group changed by `f`. -/
def loaded (w : Nat) (f : Group → Group) : State :=
  let s := State.reset.withFetchWord 32 w
  { s with groups := Assoc.put (groupKey 0 0) (f (loadedGroup (roleFor w))) s.groups }

/-- What one step leaves of the group. -/
def after (w : Nat) (f : Group → Group) : Option Group :=
  match step (loaded w f) with
  | .next t => Assoc.find (groupKey 0 0) t.groups
  | _ => none

/-- A lane line filled with one value, under a tag. -/
def Fill (n : Nat) (x : Word) (t : BitVec 5) (g : Group) : Group := (g.setLine n (Lanes.fill x)).setTag n t

/-- The value of a lane line in one lane, and its tag. -/
def seen (o : Option Group) (n : Nat) (l : Fin 32) : Option (Word × BitVec 8) := o.map (fun g => ((g.line n)[l], g.tagByte n))

/-- 16 R400: IADD v3, v1, v2 wraps at 2^32; two RAW sources give tag I32. -/
theorem test_iadd_wraps :
    seen (after 0x010C10B8 (fun g => Fill 1 0xFFFFFFFF 0 (Fill 2 2 0 g))) 3 5 = some (1, 0x01) := by decide

/-- 15 R337, the example: ADD64 v10, v4, k6. -/
theorem test_add64_example :
    let o := after 0x0D284DB9 (fun g => { Fill 4 0xFFFFFFFF 0 (Fill 5 1 0 g) with k := g.k.set 6 1 })
    seen o 10 0 = some (0, 0) ∧ seen o 11 31 = some (2, 0) := by decide

/-- 18 R448: SHL by 32 gives 0; bits above the low eight of the amount are ignored. -/
theorem test_shl_amounts :
    seen (after 0x181051B8 (fun g => Fill 5 3 0 (Fill 6 32 0 g))) 4 0 = some (0, 0) ∧
    seen (after 0x181051B8 (fun g => Fill 5 3 0 (Fill 6 0x101 0 g))) 4 0 = some (6, 0) := by decide

/-- 18 R448: SARI by 31 of a negative value. -/
theorem test_sari_sign : seen (after 0x1D1050F8 (Fill 5 0x80000000 0)) 4 9 = some (0xFFFFFFFF, 0) := by decide

/-- 17 R426: MOVI v3, -1. -/
theorem test_movi_sign : seen (after 0x270FFFF8 id) 3 0 = some (0xFFFFFFFF, 0) := by decide

/-- 14 R315, 04 R81: under a lane guard the other lanes keep their bits: IADD v3, v1, v2 under p0 = lane 1. -/
theorem test_guard_keeps :
    let o := after 0x010C1080 (fun g => { Fill 1 4 1 (Fill 2 5 1 (Fill 3 8 3 g)) with p := g.p.set 0 2 })
    seen o 3 0 = some (8, 1) ∧ seen o 3 1 = some (9, 1) := by decide

/-- 16 R399: a tag that integer arithmetic refuses stops the group with the tag trap, the register in ENTRY. -/
theorem test_tag_trap :
    (after 0x010C10B8 (Fill 2 1 3)).map (fun g => (g.stop, g.frec.faultword.extractLsb' 0 8, g.frec.entry, g.frec.seq)) =
      some (.faulted, 0x05, 2, 1) := by decide

/-- 16 R407, 14 R323: ITEST p1, v1, v2, less than, signed and unsigned. -/
theorem test_itest_signs :
    (after 0x242810B8 (fun g => Fill 1 0xFFFFFFFF 0 (Fill 2 1 0 g))).map (fun g => g.preg 1) = some 0xFFFFFFFF ∧
    (after 0x243810B8 (fun g => Fill 1 0xFFFFFFFF 0 (Fill 2 1 0 g))).map (fun g => g.preg 1) = some 0 := by decide

/-- 16 R386, the example: FMA v8, v4, v6 rounds once. -/
theorem test_fma_example :
    seen (after 0x332041BB (fun g => Fill 4 0x3F800800 3 (Fill 6 0x3F800800 3 (Fill 8 0xBF801000 3 g)))) 8 0 =
      some (0x33800000, 0x03) := by decide

/-- 16 R374, 04 R93: FADD v3, v1, v2 of 1 and half a unit in the last place rounds to even and raises inexact alone. -/
theorem test_fadd_ties_to_even :
    let o := after 0x300C10B8 (fun g => Fill 1 0x3F800000 3 (Fill 2 0x33800000 3 g))
    seen o 3 0 = some (0x3F800000, 0x03) ∧ o.map (fun g => g.fexc) = some 0x10 := by decide

/-- 18 R465: UADDI k3, k3, -1 wraps. -/
theorem test_uaddi_wraps : (after 0x8318FFF8 id).map (fun g => g.kreg 3) = some 0xFFFFFFFF := by decide

/-- 18 R465, R466: ULUI k7, 0x1234 sets the upper half and UMOVI k7, -1 extends its sign. -/
theorem test_upper_and_sign :
    (after 0x9A3891A0 id).map (fun g => g.kreg 7 / 2 ^ 16) = some 0x1234 ∧
    (after 0x993FFFF8 id).map (fun g => g.kreg 7) = some 0xFFFFFFFF := by decide

/-- 15 R350, 14 R325: BRA by -1 stays at word 0; BRA past the overlay is an illegal instruction, even where q0 is clear. -/
theorem test_bra_targets :
    (after 0xB0FFFFFF id).map (fun g => (g.live0.pc.off, g.stop)) = some (0, .running) ∧
    (after 0xB0000005 id).map (fun g => (g.stop, g.frec.faultword)) = some (.faulted, 0x01) := by decide

/-- 04 R85: GROW 1 slides the window up by 16 and pushes a record. -/
theorem test_grow_slides : (after 0xB4200000 id).map (fun g => (g.lbase, g.wdepth)) = some (16, 1) := by decide

/-- 15 R369: EXIT ends every lane of the fragment. -/
theorem test_exit_ends : (after 0xB9000018 id).map (fun g => g.exited) = some 0xFFFFFFFF := by decide

/-- 15 R349: BKPT stops the group exactly before itself with KIND 0x0E; LANES and INFO are 0. -/
theorem test_bkpt_stops :
    (after 0xBB000088 id).map (fun g => (g.stop, g.frec.faultword, g.frec.pcword, g.frec.lanes, g.frec.info, g.live0.pc.off)) =
      some (.faulted, 0x0E, 0, 0, 0, 0) := by decide

/-- 14 R316: word 0 encodes no instruction. -/
theorem test_illegal_word : (after 0 id).map (fun g => (g.stop, g.frec.faultword)) = some (.faulted, 0x01) := by decide

/-- 18 R453, 04 R94: SRD v3, LANE writes each lane's index with tag U32. -/
theorem test_srd_lane : seen (after 0xC0860000 id) 3 17 = some (17, 0x02) := by decide

/-! ### Witnesses of the premises -/

section Premises

open Sys2Proof.Claims

-- one theorem at a time, so that the check of this file keeps to its memory
set_option Elab.async false

/-- 64-bit words at their places in memory. -/
def words (xs : List (Nat × Nat)) (s : State) : State :=
  { s with mem := xs.foldl (fun m x => memStore m (cellsOf x.1 8 x.2)) s.mem }

/-- Job 1 with the tables of 10 R211 to R215: its pages 1 and 2 lie at 0x20000 and 0x30000, key 0. -/
def paged (s : State) : State :=
  words [(0x40, 0x2001), (0x48, 0x10000), (0x2000, 0x4001), (0x4000, 0x6001), (0x6000, 0x8001), (0x8008, 0x2001F), (0x8010, 0x3001F)] s

/-- `s` with instruction `i` at issue in a group changed by `f`, with key 0 in its mask. -/
def run (i : Instr) (f : Group → Group) (s : State) : State :=
  let w := (encode i).getD 0
  let t := s.withFetchWord 32 w
  { t with groups := Assoc.put (groupKey 0 0) (f { loadedGroup (roleFor w) with keymask := 1 }) s.groups }

/-- Whether `i` is ready at issue in `s`, and `p` holds of it there. -/
def meets (i : Instr) (s : State) (p : Ctx → Bool) : Bool :=
  match issuing s with
  | some c => i.wellFormed && decide (c.g.role ∈ (shapeOf c.g i).roles) && c.scoreboard (shapeOf c.g i) &&
      !c.holdsBack i && c.guardOn (shapeOf c.g i).guard && decide (c.sourceTraps (shapeOf c.g i) = []) && p c
  | none => false

theorem of_meets {i : Instr} {s : State} {p : Ctx → Bool} (h : meets i s p = true) : ∃ c, Ready i s c ∧ p c = true := by
  unfold meets at h
  split at h
  · rename_i c hc
    simp only [Bool.and_eq_true, decide_eq_true_eq, Bool.not_eq_true'] at h
    exact ⟨c, ⟨hc, h.1.1.1.1.1.1, h.1.1.1.1.1.2, h.1.1.1.1.2, h.1.1.1.2, h.1.1.2, h.1.2⟩, h.2⟩
  · cases h

/-- The tags of an operand, as a test. -/
def takesB (c : Ctx) (x : BitVec 6) (n : Nat) (ok : BitVec 5 → Bool) : Bool :=
  (List.range n).all (fun i => match c.tagOf x i with | some t => ok t | none => true)

theorem takes_of {c : Ctx} {x : BitVec 6} {n : Nat} {ok : BitVec 5 → Bool} (h : takesB c x n ok = true) : c.takes x n ok := by
  intro i hi t ht
  have := List.all_eq_true.mp h i (List.mem_range.mpr hi)
  simpa [ht] using this

/-- The flat address of a place in this module. -/
def flatOf (p : Place) : Nat := match p with | .here flat _ => flat | _ => 0

/-- Where the lanes of an access reach in this module, as a test. -/
def reachesB (c : Ctx) (lanes : List Nat) (who : Nat → Option Nat) (va : Nat → Nat) (n : Nat) (write : Bool) : Bool :=
  decide (c.g.ctrRemote.toNat + c.s.unsentFlags c.key ≤ 65535) && lanes.all (fun l => decide (va l % n = 0) && match c.s.place c.g (who l) (va l) write with
    | .here flat _ => !c.s.marked flat && !c.s.poisoned flat
    | _ => false)

theorem reaches_of {c : Ctx} {lanes : List Nat} {who : Nat → Option Nat} {va : Nat → Nat} {n : Nat} {write : Bool} (atomic : Bool)
    (h0 : reachesB c lanes who va n write = true) : ∃ tgt, Reaches c lanes who va n write atomic tgt := by
  simp only [reachesB, Bool.and_eq_true, decide_eq_true_eq] at h0
  obtain ⟨room, h⟩ := h0
  have all : ∀ l ∈ lanes, va l % n = 0 ∧ ∃ f, c.s.place c.g (who l) (va l) write = .here (flatOf (c.s.place c.g (who l) (va l) write)) f ∧
      c.s.marked (flatOf (c.s.place c.g (who l) (va l) write)) = false ∧ c.s.poisoned (flatOf (c.s.place c.g (who l) (va l) write)) = false := by
    intro l hl
    have := List.all_eq_true.mp h l hl
    cases e : c.s.place c.g (who l) (va l) write <;> simp_all [flatOf]
  refine ⟨fun l => (none, flatOf (c.s.place c.g (who l) (va l) write)), fun l hl => (all l hl).1, ?_, ?_, ?_, ?_, ?_⟩
  · intro l hl
    obtain ⟨_, f, e, _⟩ := all l hl
    exact Or.inl ⟨f, _, e, rfl⟩
  · rintro _ _ l hl _ ⟨⟩
    exact (all l hl).2.choose_spec.2.1
  · rintro _ l hl _ ⟨⟩
    exact (all l hl).2.choose_spec.2.2
  · rintro ⟨l, _, e⟩
    exact absurd rfl e
  · intro _ _
    have e : sectorsAway lanes (fun l => (none, flatOf (c.s.place c.g (who l) (va l) write))) = [] := by
      refine List.filter_eq_nil_iff.mpr fun x hx => ?_
      obtain ⟨l, _, rfl⟩ := List.mem_map.mp (List.mem_eraseDups.mp hx)
      simp
    rw [e]
    simpa using room

/-! Memory operations (17 R412, 18 R456, 08 R182, 09 R197) -/

def laneReaches (i : Instr) (va : Nat) (write : Bool) (n : Nat) : Bool :=
  meets i (run i (Fill 0 (BitVec.ofNat 32 va) 0) (paged State.reset)) (fun c => !(lanesOf (c.acting i)).isEmpty &&
    reachesB c (lanesOf (c.acting i)) some (c.laneAddr 0 0) n write)

theorem premise_lane_load : laneReaches (.ldW 2 0 0 7) 0x10000 false 4 = true := by decide
theorem premise_lane_store : laneReaches (.stW 2 0 0 7) 0x10000 true 4 = true := by decide
theorem premise_lane_atomic : laneReaches (.atomW 2 0 4 3 0) 0x10000 true 4 = true ∧
    meets (.atomW 2 0 4 3 0) (run (.atomW 2 0 4 3 0) id State.reset) (fun c => takesB c 4 1 (fun t => decide (t = 0))) = true := by decide

theorem premise_uniform_access :
    meets (.uldW 4 2 0 0) (run (.uldW 4 2 0 0) (fun g => { g with k := g.k.set 2 0x10000 }) (paged State.reset))
      (fun c => reachesB c [0] (fun _ => none) (fun _ => uniformAddress c 2 0) 4 false) = true := by decide

theorem premise_misaligned :
    meets (.ldW 2 0 0 7) (run (.ldW 2 0 0 7) (Fill 0 0x10002 0) (paged State.reset))
      (fun c => decide (0 ∈ lanesOf (c.acting (.ldW 2 0 0 7)) ∧ c.laneAddr 0 0 0 % 4 ≠ 0)) = true := by decide

/-- The state in which access 0 of operation 5, of a group in frame 0 of core 0, is to take effect. -/
def opened (o : MemOp) (more : List (Nat × MemOp)) : State :=
  { State.reset with
    input := .two 5 0, groups := [(0, loadedGroup .vector)], ops := (5, o) :: more, nextId := 9 }

def stored : MemOp :=
  { group := 0, owner := 0xFFFFFFFF, po := 3, pcword := 0, accs := [(0, { kind := .write [(0x20000, 7)] })] }
def loading : MemOp :=
  { group := 0, owner := 0xFFFFFFFF, po := 3, pcword := 0, accs := [(0, { kind := .read [(0x20000, 0)] })]
    dest := .lanes 1 false [4] 1 }
def swapped : MemOp :=
  { group := 0, owner := 0xFFFFFFFF, po := 3, pcword := 0, accs := [(0, { kind := .rmw 0x20000 4 0 (.atom 0 .signed 1 0) })]
    dest := .uniform 4 [3] }

theorem effective (o : MemOp) (a : Access) (h : o.accs = [(0, a)]) (c : a.chip = none) (r : (opened o []).accessReady 5 o a = true)
    (t : (opened o []).ticketsBlock 5 o = false) : Effective (opened o []) 5 0 o a :=
  ⟨rfl, rfl, by rw [h]; rfl, c, r, t⟩

theorem premise_store_effect : Effective (opened stored []) 5 0 stored { kind := .write [(0x20000, 7)] } ∧
    (opened stored []).spoiled [(0x20000, 7)] = [] ∧ stored.dest = .none ∧ stored.errs = [] :=
  ⟨effective _ _ rfl rfl (by decide) (by decide), by decide⟩

theorem premise_load_effect : Effective (opened loading []) 5 0 loading { kind := .read [(0x20000, 0)] } ∧ loading.dest ≠ .none ∧
    (Assoc.find loading.group (opened loading []).groups).isSome = true :=
  ⟨effective _ _ rfl rfl (by decide) (by decide), by decide⟩

theorem premise_atomic_effect :
    Effective (opened swapped []) 5 0 swapped { kind := .rmw 0x20000 4 0 (.atom 0 .signed 1 0) } ∧
    (∀ x, (opened swapped []).spoiled (cellsOf 0x20000 4 x) = []) ∧ (opened swapped []).poisoned 0x20000 = false :=
  ⟨effective _ _ rfl rfl (by decide) (by decide), fun _ => rfl, by decide⟩

theorem premise_load_returns :
    let o := { loading with accs := [] }
    let s := { opened o [] with input := .one 5 }
    Assoc.find 5 s.ops = some o ∧ o.sent = [] ∧ o.errs = [] ∧ (Assoc.find o.group s.groups).isSome = true := by decide

/-- One operation that each clause of the local order holds back, and the one before it. -/
theorem premise_local_order :
    let s := fun o e => opened { o with po := 3 } [(6, { e with po := 2 })]
    let both := fun (o e : MemOp) => Assoc.find 5 (s o e).ops = some { o with po := 3 } ∧ (6, { e with po := 2 }) ∈ (s o e).ops ∧
      e.owner &&& o.owner ≠ 0
    both loading stored ∧ both loading { loading with acquire := some 3 } ∧ both { stored with release := some 3 } stored ∧
    both { loading with acquire := some 3 } { stored with release := some 3 } ∧ both { stored with after := 3 } stored ∧
    both { stored with flagged := true } stored := by decide

/-! Floating point, special registers and tiles (04 R79, R93; 16 R374 to R404; 18 R460) -/

/-- Lane lines `ns` filled with one value under a tag. -/
def fillAll (ns : List Nat) (x : Word) (t : BitVec 5) (g : Group) : Group := ns.foldl (fun g n => Fill n x t g) g

theorem premise_float_sources :
    meets (.fma 2 0 1 7 0) (run (.fma 2 0 1 7 0) (fillAll [0, 1, 2] 0x3F800000 3) State.reset) (fun c =>
      arithmetic (c.opFormat [0, 1, 2]) && [0, 1, 2].all (fun x => takesB c x 1 (fun u => decide (u = c.opFormat [0, 1, 2])))) = true ∧
    meets (.fadd 4 0 2 7 0) (run (.fadd 4 0 2 7 0) (fillAll [0, 1, 2, 3] 0x3F800000 4) State.reset) (fun c =>
      decide (c.opFormat [0, 2] = 0x04) && [0, 2].all (fun x => takesB c x 2 (fun u => decide (u = 0x04)))) = true := by decide

theorem premise_scale_broadcast :
    meets (.fscl 2 48 1 7 0) (run (.fscl 2 48 1 7 0) id State.reset) (fun _ => true) = true := by decide

theorem premise_conversions :
    meets (.fcvt 4 0 5 7 0) (run (.fcvt 4 0 5 7 0) (fillAll [0, 1] 0x3F800000 3) State.reset) (fun c =>
      decide (c.tagOf 0 = some 3 ∧ cvtElems2 3 5 / density2 3 = 2) && takesB c 0 2 (fun u => decide (u = 3))) = true ∧
    meets (.icvt 4 0 3 7 0) (run (.icvt 4 0 3 7 0) (fillAll [0] 0x01010101 0x0D) State.reset) (fun c =>
      decide (c.icvtSource 0 = 0x0D) && takesB c 0 1 (fun u => decide (u = 0x0D))) = true ∧
    (Sys2Proof.Claims.floatFormat 3 ∧ Sys2Proof.Claims.floatFormat 5 ∧ Sys2Proof.Claims.integerFormat 0x0D) := by
  refine ⟨by decide, by decide, ?_⟩
  simp [Sys2Proof.Claims.floatFormat, Sys2Proof.Claims.integerFormat]

theorem premise_float_dots :
    meets (.fdot2 4 0 1 7 0) (run (.fdot2 4 0 1 7 0) (fun g => fillAll [4] 0 3 (fillAll [0, 1] 0x3F803F80 5 g)) State.reset) (fun c =>
      takesB c 0 1 (fun t => decide (t = 5 ∨ t = 6)) && takesB c 4 1 single) = true := by decide

theorem premise_special_registers :
    meets (.swr 4 0x011 0) (run (.swr 4 0x011 0) (fun g => { g with k := g.k.set 4 0x1F }) State.reset) (fun c =>
      decide (c.g.kreg 4 = 0x1F)) = true ∧
    meets (.swr 4 0x011 0) (run (.swr 4 0x011 0) (fun g => { g with k := g.k.set 4 0x20 }) State.reset) (fun c =>
      decide (c.g.kreg 4 = 0x20)) = true := by decide

theorem premise_tile_tags :
    (meets (.tagr 4 1 1 0) (run (.tagr 4 1 1 0) (fun g => { g with role := .matrix }) State.reset) (fun c =>
      decide (c.g.role = .matrix) && assignedTag (c.g.tileTag 1)) = true) ∧
    meets (.tagr 4 1 1 0) (run (.tagr 4 1 1 0) (fun g => { g with role := .matrix, ztag := 0x1400 }) State.reset) (fun c =>
      decide (c.g.role = .matrix) && !assignedTag (c.g.tileTag 1)) = true := by decide

/-! Branches, windows, overlays and ends (04 R84, R85; 15 R350 to R369; 17 R432) -/

theorem premise_branches :
    meets (.bra 3 (-1)) (run (.bra 3 (-1)) id State.reset) (fun c => decide (c.overlayWords = 1)) = true ∧
    meets (.bra 3 5) (run (.bra 3 5) id State.reset) (fun c => decide (c.overlayWords = 1)) = true ∧
    meets (.brx 4 3 0) (run (.brx 4 3 0) id State.reset) (fun c => decide ((c.g.kreg 4).toNat = 0)) = true ∧
    meets (.brx 4 3 0) (run (.brx 4 3 0) (fun g => { g with k := g.k.set 4 7 }) State.reset) (fun c => decide ((c.g.kreg 4).toNat = 7)) = true ∧
    ∀ m : Fin 3, meets (.brp 2 (-1) (-1))
      (run (.brp 2 (-1) (-1)) (fun g => { g with p := g.p.set 2 ([0xFFFFFFFF, 0, 5].getD m.val 0) }) State.reset)
      (fun c => decide (c.f.mask &&& c.p 2 = [0xFFFFFFFF, 0, 5].getD m.val 0)) = true := by decide

/-- A group of which lane 0 alone is live. -/
def lone (g : Group) : Group := { g with exited := 0xFFFFFFFE, live0 := { g.live0 with mask := 1 } }

/-- Whether the live lanes' words of a line are reached in lane-private memory. -/
def privateAt (c : Ctx) (n : Nat) (write : Bool) : Bool :=
  (lanesOf (~~~c.g.exited)).all (fun l =>
    let va := c.s.lanePrivate c.g l + 4 * n
    match (translate c.s c.g none va write).place c.s va write with
    | .here flat _ => !c.s.poisoned flat && !c.s.shackled flat
    | _ => false)

/-- A slide up that spills line 0, and one back that fills it. -/
theorem premise_slides :
    meets (.grow 0) (run (.grow 0) (fun g => { lone g with lbase := 201 }) (paged State.reset)) (fun c =>
      decide (c.g.sptr = 0 ∧ c.g.live1.kind ≠ 1 ∧ c.g.frec.ppoisv = 0 ∧ c.g.wdepth < 255 ∧ c.g.reslo = 0 ∧
        c.g.lbase + 8 + 48 - 256 = 1) &&
      privateAt c 0 true) = true ∧
    meets (.shrink 3 0) (run (.shrink 3 0) (fun g =>
        { lone g with lbase := 8, reslo := 1, wdepth := 1, wstack := [(0, record ⟨0, 0, false⟩ 0 1)] }) (paged State.reset)) (fun c =>
      decide (c.g.sptr = 0 ∧ c.g.live1.kind ≠ 1 ∧ c.g.wdepth ≠ 0 ∧ (wrec c.g 0).extractLsb' 25 2 = 1) && privateAt c 0 false) = true ∧
    meets (.ret 3 0) (run (.ret 3 0) (fun g =>
        { lone g with lbase := 8, reslo := 1, wdepth := 1, wstack := [(0, record ⟨0, 0, false⟩ 0 0)] }) (paged State.reset)) (fun c =>
      decide (c.g.wdepth ≠ 0 ∧ (wrec c.g 0).extractLsb' 25 2 = 0) && privateAt c 0 false) = true := by decide

theorem premise_calls :
    meets (.call 0 (-1)) (run (.call 0 (-1)) id State.reset) (fun c => decide (c.overlayWords = 1 ∧ c.g.wdepth < 255 ∧ c.g.sptr = 0)) = true ∧
    meets (.call 0 (-1)) (run (.call 0 (-1)) (fun g => { g with sptr := 1 }) State.reset) (fun c => decide (c.g.sptr ≠ 0)) = true ∧
    meets (.call 0 (-1)) (run (.call 0 (-1)) (fun g => { g with wdepth := 255 }) State.reset) (fun c => decide (c.g.wdepth = 255)) = true ∧
    meets (.ovret 3 0) (run (.ovret 3 0) (fun g => { g with wdepth := 1, wstack := [(0, record ⟨0, 0, false⟩ 0 2)] }) State.reset)
      (fun c => decide ((wrec c.g 0).extractLsb' 25 2 = 2 ∧ (wrecPc (wrec c.g 0)).ovl = 0)) = true := by decide

theorem premise_overlays :
    meets (.ovcall 3 0) (run (.ovcall 3 0) id State.reset) (fun c =>
      decide ((c.s.overlay c.g 0).map (fun t => (t.loading, t.size / 4)) = some (none, 1))) = true ∧
    meets (.ovcall 3 0x4000) (run (.ovcall 3 0x4000) id State.reset) (fun c => decide (c.s.overlay c.g 1 = none)) = true := by decide

theorem premise_exit :
    meets (.exit 3 0) (run (.exit 3 0) id State.reset) (fun c => decide (c.g.fails = [])) = true ∧
    meets (.exit 3 0) (run (.exit 3 0) (fun g => { g with fails := [(0, { trap := { kind := 1 }, pcword := 0 })] }) State.reset)
      (fun c => c.g.firstFailure.isSome) = true := by decide

/-- The trap ring of the first 16 cores, with room for records. -/
def trapRing (s : State) : State :=
  (((s.ctlSet .io 0x100 8 0x40000).ctlSet .io 0x108 2 64).ctlSet .io 0x10E 2 1)

theorem premise_trap :
    meets (.trap 5 0) (run (.trap 5 0) id (trapRing State.reset)) (fun c => c.drained && c.s.ringOpen 16) = true ∧
    meets (.trap 5 0) (run (.trap 5 0) id State.reset) (fun c => c.drained && !(c.s.ring 16).room) = true := by decide

/-! Barriers, rings, counters and locked operations (08 R165 to R187; 11 R242 to R263; 15 R361; 17 R409) -/

/-- Where an object stands in this module, as a test. -/
def objectB (c : Ctx) (place : Place) (va align held sectors : Nat) (write : Bool) : Bool :=
  decide (va % align = 0) && match place with
    | .here pa _ => (List.range sectors).all (fun i => !c.s.poisoned (pa + 64 * i)) && (!write || (!c.s.shackled pa && !c.g.readsStill ((List.range align).map (fun i => pa + i)))) &&
      !c.objectHeld pa held
    | _ => false

theorem objectAt_of {c : Ctx} {place : Place} {va align held sectors : Nat} {write : Bool}
    (h : objectB c place va align held sectors write = true) : ∃ pa f, ObjectAt c place va align held sectors write pa f := by
  unfold objectB at h
  cases place <;> simp only [Bool.and_eq_true, decide_eq_true_eq, List.all_eq_true, List.mem_range, Bool.not_eq_true', Bool.or_eq_true,
    Bool.false_eq_true, and_false] at h
  rename_i pa f
  exact ⟨pa, f, h.1, rfl, h.2.1.1, fun w => by simpa [w] using h.2.1.2, h.2.2⟩

/-- A group whose pair k4 names the page at 0x10000. -/
def pointed (g : Group) : Group := { g with k := (g.k.set 4 0x10000).set 8 1 }

/-- Whether `i` meets an object at k4's address, in which `p` holds. -/
def meetsObject (i : Instr) (write : Bool) (align held sectors : Nat) (ws : List (Nat × Nat)) (p : Ctx → Bool) : Bool :=
  meets i (run i pointed (words ws (paged State.reset))) (fun c =>
    objectB c (c.objectPlace 0x10000 write) (c.kpair (4 : BitVec 5)) align held sectors write && p c)

/-- A barrier of two arrivals, without arrivals, with one, and with two; one in phase 1 with a lost member. -/
theorem premise_barriers :
    meetsObject (.barInit 2 4 8 3 0) true 16 16 1 [] (fun c => !c.s.parked 0x20000) = true ∧
    meetsObject (.barInit 2 4 0 3 0) true 16 16 1 [] (fun c => decide (c.g.kreg 0 = 0)) = true ∧
    meetsObject (.barArv 2 4 0 3 0) true 16 16 1 [(0x20000, 2)] (fun c => c.released 0 && decide ((c.s.barrier 0x20000).expect = 2)) = true ∧
    meetsObject (.barArw 2 4 1 3 0) true 16 16 1 [(0x20000, 0x1000000000002)] (fun c =>
      c.released 1 && decide ((c.s.barrier 0x20000).cnt0 + (c.s.barrier 0x20000).cnt1 = 1)) = true ∧
    meetsObject (.barWait 2 4 0 3 0) true 16 16 1 [(0x20000, 0x10002)] (fun c => completed (c.s.barrier 0x20000) 0) = true ∧
    meetsObject (.barWait 2 4 0 3 0) true 16 16 1 [(0x20000, 2)] (fun c => !completed (c.s.barrier 0x20000) 0) = true ∧
    meetsObject (.barTest 2 4 0 0 3 0) true 16 16 1 [(0x20000, 2)] (fun _ => true) = true ∧
    meetsObject (.barTest 2 4 1 0 3 0) true 16 16 1 [(0x20000, 2)] (fun _ => true) = true := by decide

/-- An arrival two phases ahead. -/
theorem premise_barrier_blocked :
    meets (.barArv 2 4 0 3 0) (run (.barArv 2 4 0 3 0) (fun g => { pointed g with bphase := 2 }) (words [(0x20000, 2)] (paged State.reset)))
      (fun c => decide ((localPhase c.g 0x10000 + 256 - (c.s.barrier 0x20000).pseq) % 4 = 2)) = true := by decide +kernel

theorem premise_completion :
    let s : State := { State.reset with
      groups := [(0, { loadedGroup .vector with wait := .object 2 0x20000 0 false (.phase 0 0 false), waitkind := 2 })] }
    let b : Barrier := { expect := 2, pseq := 0, ovf := false, mlost := false, cnt0 := 2, cnt1 := 0 }
    (Assoc.find 0 s.groups).map (fun g => (g.stop, g.wait)) = some (.running, .object 2 0x20000 0 false (.phase 0 0 false)) ∧
    (0 + 256 - b.pseq) % 256 < (Barrier.complete 131072 b).2 ∧ Assoc.sorted s.groups = true := by decide

theorem premise_counter_wait :
    meets (.ccwait 2 4 0 3 0) (run (.ccwait 2 4 0 3 0) pointed (paged State.reset)) (fun c =>
      objectB c (c.globalPlace 0x10000 false) 0x10000 16 16 1 false && decide (c.s.nat 0x20000 4 = 0)) = true ∧
    meets (.ccwait 2 4 1 3 0) (run (.ccwait 2 4 1 3 0) pointed (words [(0x20000, 1)] (paged State.reset))) (fun c =>
      objectB c (c.globalPlace 0x10000 false) 0x10000 16 16 1 false && decide (c.s.nat 0x20000 4 ≠ 0)) = true ∧
    meets (.ccwait 2 4 0 3 0) (run (.ccwait 2 4 0 3 0) pointed (words [(0x20000, 1)] (paged State.reset))) (fun c =>
      objectB c (c.globalPlace 0x10000 false) 0x10000 16 16 1 false && decide (c.s.nat 0x20000 4 ≠ 0)) = true := by decide

theorem premise_counters :
    meets (.waitc 1 0 0) (run (.waitc 1 0 0) id State.reset) (fun c => decide (c.g.ctrMatrix = 0 ∧ Assoc.find 1 c.g.fails = none)) = true ∧
    meets (.waitc 1 0 0) (run (.waitc 1 0 0) (fun g => { g with ctrMatrix := 1 }) State.reset) (fun c => decide (c.g.ctrMatrix = 1)) = true ∧
    meets (.waitc 1 0 0) (run (.waitc 1 0 0) (fun g => { g with fails := [(1, { trap := { kind := 1 }, pcword := 0 })] }) State.reset)
      (fun c => decide (c.g.ctrMatrix = 0) && (Assoc.find 1 c.g.fails).isSome) = true := by decide

theorem premise_fences :
    meets (.fence 3 3 0) (run (.fence 3 3 0) id State.reset) (fun c => c.released 3 && !c.loadsOpen) = true ∧
    meets (.fence 3 3 0)
      (run (.fence 3 3 0) (fun g => { g with po := 1 }) { State.reset with ops := [(5, { loading with group := groupKey 0 0, po := 0 })] })
      (fun c => c.loadsOpen) = true ∧
    meets (.fencer 3 0) (run (.fencer 3 0) id State.reset) (fun c => !c.storesUnsent && decide (c.g.targets = [])) = true ∧
    meets (.fencer 3 0) (run (.fencer 3 0) (fun g => { g with targets := [(2, 0), (3, 0)] }) State.reset)
      (fun c => !c.storesUnsent && decide ((c.g.targets.map (fun x => x.1)).Nodup ∧ c.g.targets ≠ [])) = true := by decide

/-- A unit whose scratchpad starts with a stage ring of two slots: its counts (free, filled, heads) and its published slots. -/
def ringed (counts full : Nat) (lost : Bool) : State :=
  words [(paSpad 0 0, 0x0002000100000100), (paSpad 0 8, counts), (paSpad 0 16, full)]
    { State.reset with
      units := [(0, { launch := 0, ix := 0, core := 0, spadBase := 0, spadLen := 0x1000, groups := 1, live := 1, groupLost := lost })] }

/-- Whether `i` meets that ring at its start, in which `p` holds. -/
def meetsRing (i : Instr) (counts full : Nat) (lost : Bool) (p : StageRing → Bool) : Bool :=
  meets i (run i id (ringed counts full lost)) (fun c =>
    match c.s.unitOf c.g with
    | some u =>
      let pa := paSpad u.core u.spadBase
      let r := c.s.stageRing pa
      decide (c.g.kreg 4 = 0 ∧ 0 < u.spadLen ∧ 1 ≤ r.nslot ∧ r.nslot ≤ 64 ∧ r.slotsz ≠ 0 ∧ r.reserved = 0 ∧
        r.base + 256 * r.slotsz * r.nslot ≤ u.spadLen ∧ u.groupLost = lost) &&
      !c.objectHeld pa 32 && !c.g.readsStill ((List.range 32).map (fun i => pa + i)) && !c.s.parked pa && !c.s.copyrAhead pa c.s.nextId && p r
    | none => false)

/-- A ring with free slots, without one, with a published slot, and with slot 0 acquired or taken. -/
theorem premise_rings :
    meetsRing (.racq 2 4 3 0) 2 0 false (fun r => decide (0 < r.free)) = true ∧
    meetsRing (.racq 2 4 3 0) 0 0 false (fun r => decide (r.free = 0)) = true ∧
    meetsRing (.racq 2 4 3 0) 0 0 true (fun r => decide (r.free = 0)) = true ∧
    meetsRing (.rtake 2 4 3 0) 0x101 1 false (fun r => decide (r.full / 2 ^ r.chead % 2 = 1 ∧ 0 < r.filled)) = true ∧
    meetsRing (.rtake 2 4 3 0) 2 0 false (fun r => decide (r.full / 2 ^ r.chead % 2 ≠ 1)) = true ∧
    meetsRing (.rtake 2 4 3 0) 2 0 true (fun r => decide (r.full / 2 ^ r.chead % 2 ≠ 1)) = true ∧
    meetsRing (.rpub 2 4 8 3 0) 0x10001 0 false (fun r => decide ((r.phead + r.free) % r.nslot = 0 ∧ r.free = 1)) = true ∧
    meetsRing (.rpub 2 4 8 3 0) 2 0 false (fun r => decide (r.free = r.nslot)) = true ∧
    meetsRing (.rrel 2 4 3 0) 0x10001 1 false (fun r => decide (r.full / 2 ^ ((r.phead + r.free) % r.nslot) % 2 = 1) &&
      decide (popcount64 r.full ≠ r.filled)) = true ∧
    meetsRing (.rrel 2 4 3 0) 2 0 false (fun r => decide (r.full / 2 ^ ((r.phead + r.free) % r.nslot) % 2 ≠ 1)) = true := by decide

/-- Doorbell queue 0 of job 1, enabled, with 64 entries; entry 3 is marked. -/
def queue : State :=
  words [(0x7000, 8)] ((((State.reset.ctlSet .io 0x10008 8 0x7000).ctlSet .io 0x10018 4 64).ctlSet .io 0x1001E 2 1).ctlSet .io 0x10028 4 1)

theorem premise_doorbell :
    let at_ := fun (qn ix : Word) (s : State) (p : Ctx → Bool) =>
      meets (.dbell 2 4 6 3 0) (run (.dbell 2 4 6 3 0) (fun g => { g with k := (g.k.set 4 qn).set 6 ix }) s) (fun c =>
        decide (c.g.ctrIo ≠ 0xFFFF ∧ c.g.kreg 4 = qn ∧ c.g.kreg 6 = ix) && p c)
    at_ 4096 0 queue (fun _ => true) = true ∧ at_ 1 0 queue (fun c => decide (c.s.ctlNat .io 0x10068 4 % 2 = 0)) = true ∧
    at_ 0 64 queue (fun c => decide (c.s.ctlNat .io 0x10018 4 ≤ 64 ∧ c.s.ctlNat .io 0x1001E 2 = c.g.job)) = true ∧
    at_ 0 3 queue (fun c => (c.s.byte 0x7000).getLsbD 3) = true ∧
    at_ 0 4 queue (fun c => !(c.s.byte 0x7000).getLsbD 4 && c.s.bells.isEmpty) = true := by decide

theorem premise_doorbell_mark :
    let b : Bell := { group := 0, po := 0, owner := 1, queue := 0, index := 4 }
    let s := { queue with input := .one 5, bells := [(5, b)], groups := [(0, { loadedGroup .vector with ctrIo := 1 })], nextId := 9 }
    Assoc.find 5 s.bells = some b ∧ s.engineReady b.group b.po b.owner = true ∧ (Assoc.find b.group s.groups).isSome = true ∧
    s.ctlNat .io 0x10024 4 < s.ctlNat .io 0x10018 4 ∧ b.index < s.ctlNat .io 0x10018 4 := by decide

/-- An MCAS block of one entry (the word at 0x10100, expected 0, new 7), and a heap descriptor in the same page. -/
theorem premise_locked_issue :
    meets (.mcas 2 4 3 0) (run (.mcas 2 4 3 0) pointed (words [(0x20000, 0x001), (0x20010, 0x10100), (0x20020, 7)] (paged State.reset)))
      (fun c => objectB c (c.globalPlace 0x10000 false) 0x10000 256 208 1 false &&
        decide (c.s.byte 0x20000 = 1 ∧ c.s.nat 0x20001 1 = 0 ∧ c.s.nat 0x20010 8 = 0x10100) &&
        objectB c (c.s.entryPlace c.g 0x10100 0) 0x10100 8 8 1 false && decide (c.g.tickets = 0 ∧ c.s.locksOn (dieOf c.g.core) true < 256) &&
        c.released 0) = true ∧
    meets (.alloc 2 4 8 3 0) (run (.alloc 2 4 8 3 0) pointed (paged State.reset)) (fun c =>
      c.released 3 && decide (c.s.locksOn (dieOf c.g.core) false < 64) &&
      objectB c (c.globalPlace 0x10000 true) 0x10000 128 128 2 true) = true ∧
    meets (.free 2 4 8 3 0) (run (.free 2 4 8 3 0) pointed (paged State.reset)) (fun c =>
      c.released 3 && objectB c (c.globalPlace 0x10000 true) 0x10000 128 128 2 true) = true := by decide +kernel

/-- The state in which operation 5 of a group in frame 0 of core 0 is under its locks. -/
def lockedState (op : LockOp) (s : State) : State :=
  { s with
    input := .one 5, nextId := 9, groups := [(0, { loadedGroup .vector with wait := .locks 5 0, keymask := 1 })]
    locks := [(5, { group := 0, slot := false, pc := ⟨0, 0, false⟩, op := op })] }

theorem locked (op : LockOp) (s : State) : Locked (lockedState op s) 5 { group := 0, slot := false, pc := ⟨0, 0, false⟩, op := op }
    { loadedGroup .vector with wait := .locks 5 0, keymask := 1 } := ⟨rfl, rfl, rfl, 0, rfl⟩

theorem premise_mcas :
    let s := lockedState (.mcas 2 0 [(0x20100, 0, 7), (0x20108, 1, 8)]) State.reset
    ∀ e ∈ [((0x20100 : Nat), (0 : Nat), (7 : Nat)), (0x20108, 1, 8)], s.homeWaits e.1 = false ∧ s.shackled e.1 = false ∧ e.2.2 < 2 ^ 64 ∧
      e.1 % 8 = 0 := by decide

/-- A heap descriptor at 0x20000: base 0x10000, limit 0x11000, next bytes at `bump`, class 0's list at `head`. -/
def heap (bump head : Nat) : State :=
  words [(0x20000, 0x10000), (0x20008, 0x11000), (0x20010, bump), (0x20018, head)] (paged State.reset)

/-- A block from the heap, from a list, and none; a block returned. -/
theorem premise_heap :
    let s := fun op b h => lockedState op (heap b h)
    (∀ h ∈ [0x10200, 0], (s (.alloc 2 0x20000 256) 0x10400 h).shackled 0x20000 = false ∧
      (s (.alloc 2 0x20000 256) 0x10400 h).homeWaits 0x20000 = false ∧ (s (.alloc 2 0x20000 256) 0x10400 h).nat 0x20018 8 = h) ∧
    (match (s (.alloc 2 0x20000 256) 0x10400 0x10200).linkPlace { loadedGroup .vector with wait := .locks 5 0, keymask := 1 } 0x10200 false with
     | .here flat (some _) => !(s (.alloc 2 0x20000 256) 0x10400 0x10200).poisoned flat
     | _ => false) = true ∧
    (s (.alloc 2 0x20000 256) 0x11000 0).nat 0x20010 8 = (s (.alloc 2 0x20000 256) 0x11000 0).nat 0x20008 8 ∧
    (match (s (.free 2 0x20000 0x10300) 0x10400 0).linkPlace { loadedGroup .vector with wait := .locks 5 0, keymask := 1 } 0x10300 true with
     | .here flat (some _) => decide (0x20000 + 96 ≤ flat)
     | _ => false) = true := by decide +kernel

/-- A launch of job 1, live as launch 0, with its block and counters from 0x11000 on. -/
def launched : Launch :=
  { job := 1, flags := 1, units := 1, perclu := 1, ncopy := 0, nmatrix := 0, nvector := 1, frame := 0, spad := 0, code := 0, entcopy := 0
    entmatrix := 0, entvector := 0, keymask := 1, param := 0, block := 0x11100, deps := 0, gmask := 1, queue := 0, order := 0, held := false
    ctrs := { graph := 0x11000, phase := 0x11010, jobc := 0x11020, priorph := 0 } }

/-- The job's state with that launch live and its unit with `n` records queued; the overflow ring has room for `cap`. -/
def launchState (n cap : Nat) : State :=
  words [(0x21110, 0x10400), (0x21118, cap)] (paged { State.reset with
    launches := [(0, launched)]
    units := [(0, { launch := 0, ix := 0, core := 0, spadBase := 0, spadLen := 0, groups := 1, live := 1
                    pending := List.replicate n { record := [], entered := 0 } })] })

theorem premise_launch :
    let ok := fun n cap (p : Ctx → Bool) =>
      meets (.launch 2 4 3 0) (run (.launch 2 4 3 0) pointed (launchState n cap)) (fun c =>
        c.released 3 && objectB c (c.globalPlace 0x10000 false) 0x10000 64 0 1 false && decide (c.s.launchOf c.g = some launched) &&
        (match c.s.reach 1 1 0x11000 true with | .at f _ => !c.s.shackled f | _ => false) &&
        (match c.s.reach 1 1 0x11100 true with | .at f _ => !c.s.shackled f | _ => false) &&
        !c.s.deviceOpen 1 0x11000 && !c.s.deviceOpen 1 0x11100 && p c)
    ok 0 0 (fun c => decide ((c.s.unitOf c.g).map (fun u => (u.pending.length, u.ix)) = some (0, 0))) = true ∧
    ok 4 0 (fun c => decide ((c.s.overflow launched).map (fun x => x.2.1) = some 0)) = true ∧
    ok 4 2 (fun c => decide (c.s.overflow launched = some (0x10400, 2, 0, 0)) &&
      (match c.globalPlace 0x10400 true with | .here f _ => !c.s.shackled f | _ => false)) = true := by decide +kernel

/-- CANCEL of the launch's own level; of a counter of no level; of a level that is complete. -/
theorem premise_cancel :
    let ok := fun va (s : State) (p : Ctx → Bool) =>
      meets (.cancel 2 4 1 3 0) (run (.cancel 2 4 1 3 0) (fun g => { g with k := g.k.set 4 va }) s) (fun c =>
        objectB c (c.globalPlace va.toNat false) va.toNat 16 16 1 false && decide (c.g.wait = .none) && c.s.rtkt.isEmpty && p c)
    ok 0x11100 (words [(0x21100, 1)] (launchState 0 0)) (fun c =>
      decide ((c.s.levelAt 1 1 0x21100).launches = [0] ∧ c.s.nat 0x21100 4 ≠ 0 ∧ c.s.cancelWaits 1 1 0x21100 = none)) = true ∧
    ok 0x10800 (launchState 0 0) (fun c => decide ((c.s.levelAt 1 1 0x20800).launches = []) && c.s.finished.isEmpty) = true ∧
    ok 0x11100 (launchState 0 0) (fun c => decide ((c.s.levelAt 1 1 0x21100).launches = [0] ∧ c.s.nat 0x21100 4 = 0)) = true := by decide +kernel

/-! Engines: copy, overlays, matrix, exact predicates (06; 15 R364 to R367; 17 R432 to R441; 18 R473 to R481) -/

theorem premise_copy_commands :
    meets (.copy 2 4 6 0) (run (.copy 2 4 6 0) id State.reset) (fun c => decide (c.s.commands c.g.core < 32 ∧ c.g.ctrCopy ≠ 0xFFFF)) = true ∧
    meets (.gather 2 4 8 0) (run (.gather 2 4 8 0) id State.reset) (fun c =>
      decide (c.s.commands c.g.core < 32 ∧ c.g.ctrCopy ≠ 0xFFFF)) = true := by decide

/-- A copy operation 5 of a group in frame 0, whose source lies in the page at 0x10000 and whose destination follows it. -/
def copying (o : CopyOp) (input : Input) : State :=
  paged { State.reset with
    input := input, groups := [(0, { loadedGroup .copy with ctrCopy := 1, keymask := 1 })], copies := [(5, o)], nextId := 9 }

/-- The operation with nothing read, with its sector read, and with all done. -/
def copyOp : CopyOp := { group := 0, core := 0, owner := 0xFFFFFFFF, po := 3, pcword := 0, shape := .linear 0x10100 0x10000 2 }
def copyRead : CopyOp := { copyOp with buf := [(0x10000, 1), (0x10001, 2)] }
def copyDone : CopyOp := { copyRead with done := [(0x10100 / 64, true)] }

theorem works (o : CopyOp) (input : Input) (h : (copying o input).copyReady 5 o = true) (p : o.group = 0) (f : o.failed = none)
    (w : (copying o input).awaiting (.engine 5) = false ∧ (copying o input).serviceFailed (.engine 5) = none)
    (r : ∀ d a l, o.shape = .ring d a l → o.slot ≠ none) (v : ∀ a b n, o.shape ≠ .overlay a b n) :
    Works (copying o input) 5 o { loadedGroup .copy with ctrCopy := 1, keymask := 1 } :=
  ⟨rfl, rfl, by rw [p]; rfl, h, f, w, r, v⟩

theorem premise_copy_works : ∀ o ∈ [copyOp, copyRead, copyDone], ∀ n,
    Works (copying o n) 5 o { loadedGroup .copy with ctrCopy := 1, keymask := 1 } := by
  intro o h n
  simp only [List.mem_cons, List.not_mem_nil, or_false] at h
  rcases h with rfl | rfl | rfl <;>
    exact works _ _ rfl rfl rfl ⟨rfl, rfl⟩ (by simp [copyOp, copyRead, copyDone]) (by simp [copyOp, copyRead, copyDone])

theorem premise_copy_accesses :
    let s := copying copyOp (.two 5 (2 * 0x400))
    let u := copying copyRead (.two 5 (2 * 0x404 + 1))
    ((s.sources copyOp).filter (fun va => decide (va / 64 = 0x400) && (copyOp.got va).isNone)).eraseDups = [0x10000, 0x10001] ∧
    (match s.copyPlace copyOp 0x10000 false with | .here flat _ => !s.poisoned flat | _ => false) = true ∧
    0x404 ∈ u.unwritten copyRead ∧ u.sectorBytes copyRead 0x404 = some [(0x10100, 1), (0x10101, 2)] ∧ u.hotSources copyRead 0x404 = [] ∧
    (match u.copyPlace copyRead 0x10100 true with
     | .here flat _ => !u.shackled flat && (u.spoiled [(flat, 1), (flat + 1, 2)]).isEmpty
     | _ => false) = true := by decide +kernel

theorem premise_copy_completes :
    let s := copying copyDone (.one 5)
    (∀ va ∈ s.sources copyDone, copyDone.got va ≠ none) ∧ s.unwritten copyDone = [] ∧ copyDone.sent = [] := by decide

/-- OVLD of an overlay whose table entry names 64 bytes at 0x10100: no slot holds it and three are free; slot 1 holds it; no slot is free. -/
theorem premise_overlay_load :
    let ok := fun (more : List (Nat × Slot)) (p : State → Bool) =>
      meets (.ovld 2 0 0) (run (.ovld 2 0 0) (fun g => { g with code := 0x10000 })
        (words [(0x20000, 1), (0x20010, 0x10100), (0x20018, 64)] (paged { State.reset with slots := more }))) (fun c =>
          decide (c.s.commands c.g.core < 32 ∧ c.g.ctrCopy ≠ 0xFFFF) &&
          (match c.ovldEntry 0 with | .code a n => decide (a = 0x10100 ∧ n = 64) | _ => false) && p (c.s.setGroup c.key { c.g with hold := none }))
    let other := fun (n : Nat) (x : BitVec 64) =>
      (slotKey 0 n, { job := 1, code := x, ovl := 0, addr := 0, size := 64, loading := some (.group 0 0) : Slot })
    ok [] (fun s => decide (s.slotOf 0 1 0x10000 0 = none ∧ s.freeSlot 0 = some 0)) = true ∧
    ok [other 1 0x10000] (fun s => decide (s.slotOf 0 1 0x10000 0 = some 1)) = true ∧
    (let w := (encode (.ovld 2 0 0)).getD 0
     let s := { (State.reset.withFetchWord 32 w) with slots := [other 0 9, other 1 9, other 2 9, other 3 9] }
     s.slotOf 0 1 0x10000 0 = none ∧ s.freeSlot 0 = none) := by decide +kernel

/-- A matrix-role group whose operands lie in its unit's scratchpad: descriptor word `w` in k6, a B operand at k8, tile 2 tagged FP32. -/
def scratch (w : Word) (g : Group) : Group :=
  { g with
    k := ((((g.k.set 5 0xFF0001).set 6 w).set 8 0x2000).set 9 0xFF0001).set 10 0x00100003, role := .matrix, ztag := 0x030000 }

/-- A unit with 64 KiB of scratchpad. -/
def roomy (s : State) : State :=
  { s with units := [(0, { launch := 0, ix := 0, core := 0, spadBase := 0, spadLen := 0x10000, groups := 1, live := 1 })] }

/-- Whether a matrix instruction may start. -/
def startsB (i : Instr) (f : Group → Group) : Bool :=
  let s := run i f (roomy State.reset)
  meets i s (fun c =>
    let xs := (c.matrixChecks i).1 ++ (c.matrixChecks i).2
    decide (c.f.mask = BitVec.allOnes 32 ∧ c.g.sptr = 0 ∧ c.g.live1.kind ≠ 1 ∧ c.matrixTraps i = []) &&
    xs.all (fun x => match x.place with | .here _ _ => true | _ => false) &&
    decide (c.g.matrixOp = none) && (s.muHolder c.g.partNo).isNone &&
    decide (c.g.ctrMatrix ≠ 0xFFFF ∧ (s.part c.g.partNo).mu = .awake ∧ Assoc.find 1 c.g.fails = none ∧ s.zstaOn (dieOf c.g.core) < 64))

theorem starts_of {i : Instr} {f : Group → Group} (h : startsB i f = true) : ∃ s c, MatrixReady i s c := by
  obtain ⟨c, r, p⟩ := of_meets h
  simp only [Bool.and_eq_true, decide_eq_true_eq, List.all_eq_true, Option.isNone_iff_eq_none] at p
  refine ⟨_, c, r, ⟨p.1.1.1.1.1, p.1.1.1.1.2.1, p.1.1.1.1.2.2.1⟩, p.1.1.1.1.2.2.2, fun x hx => ?_,
    ⟨p.1.1.2, ?_, p.2.1, p.2.2.1⟩, p.2.2.2.1, fun _ => ?_⟩
  · have := p.1.1.1.2 x hx
    cases e : x.place with
    | here flat f => exact ⟨flat, f, rfl⟩
    | _ => rw [e] at this; cases this
  · exact p.1.2
  · exact p.2.2.2.2

/-- A group in frame 0 whose unit is at operation `o`, with the micro-tiles of `done` complete, and the state in which it goes on. -/
def runner (o : MatrixOp) (done : BitVec 16) : Group :=
  { loadedGroup .matrix with matrixOp := some o, mtmask := done, ctrMatrix := 1, busy := [.z 1] }
def running (o : MatrixOp) (done : BitVec 16) : State :=
  { State.reset with input := .one 0, nextId := 9, groups := [(0, runner o done)] }

/-- An operation of an instruction with nothing read yet, whose operands stand in a scratchpad. -/
def working (i : Instr) (a b : Nat) : MatrixOp :=
  { instr := i, pcword := 0, po := 3, part := 0, descA := a, descB := b, source := [], srcTag := 3, qthr := 0
    pages := [(0, paSpad 0 0)], progress := 0 }

/-- Whether the operation's next micro-tile may run, and its completion. -/
def tileB (o : MatrixOp) (done : BitVec 16) (m : Nat) : Bool :=
  let s := running o done
  let g := runner o done
  decide (m < 16 ∧ done.getLsbD m = false ∧ ∀ k < m, done.getLsbD k = true) &&
    s.engineReady 0 o.po (BitVec.allOnes 32) && (o.poisonedAt s (o.reads m)).isNone && !g.tilePoisonAt o m
def lastB (o : MatrixOp) (done : BitVec 16) : Bool :=
  let s := running o done
  let g := runner o done
  s.engineReady 0 o.po (BitVec.allOnes 32) && s.outputsFree 0 g o && (s.outputPoison g o).isNone

theorem tile_of {o : MatrixOp} {d : BitVec 16} {m : Nat} (h : tileB o d m = true) (n : o.lines = [] ∧ o.banks = []) :
    TileNext (running o d) 0 m (runner o d) o := by
  simp only [tileB, Bool.and_eq_true, decide_eq_true_eq, Bool.not_eq_true', Option.isNone_iff_eq_none] at h
  exact ⟨rfl, rfl, rfl, h.1.1.1, h.1.1.2, ⟨h.1.2, h.2, rfl⟩, n⟩

theorem last_of {o : MatrixOp} {d : BitVec 16} (h : lastB o d = true) (n : o.replay = false ∧ o.nan = none) :
    MatrixLast (running o d) 0 (runner o d) o := by
  simp only [lastB, Bool.and_eq_true, Option.isNone_iff_eq_none] at h
  exact ⟨rfl, rfl, rfl, h.1.1, h.1.2, h.2, ⟨n.1, n.2, rfl⟩⟩

theorem premise_matrix_starts :
    [.zzero 1 0, .zmov 1 2 0, .hadt 1 2 0 0, .zcvt 1 2 0 0].all (fun i => startsB i (scratch 0)) = true ∧
    startsB (.zld 1 4 0) (scratch 0x00400000) = true ∧ startsB (.zst 4 2) (scratch 0x00400000) = true ∧
    startsB (.zsta 4 2) (scratch 0x00400000) = true ∧ startsB (.mma 1 4 8 0 0 0) (scratch 0x00100103) = true ∧
    startsB (.qtile 0 8 2 0 0 1) (fun g => { scratch 0 g with k := (((scratch 0 g).k.set 10 0x00002000)) }) = true := by decide +kernel

theorem premise_micro_tiles :
    [working (.zzero 1 0) 0 0, working (.zmov 1 2 0) 0 0, working (.zcvt 1 2 0 0) 0 0, working (.hadt 1 2 0 0) 0 0].all (fun o =>
      tileB o 0 0 && tileB o 0x7FFF 15) = true ∧
    tileB (working (.zld 1 4 0) (4 * 2 ^ 84) 0) 0 0 = true ∧
    tileB (working (.mma 1 4 8 0 0 0) (3 * 2 ^ 64 + 2 ^ 72 + 2 ^ 84) (0x2000 + 3 * 2 ^ 64 + 2 ^ 84)) 1 1 = true := by decide +kernel

theorem not_shackled (i : Instr) (a b : Nat) (d : BitVec 16) (x : Nat) : (running (working i a b) d).shackledFor 0 x = false := by
  simp [State.shackledFor, running, runner]

theorem not_poisoned (i : Instr) (a b : Nat) (d : BitVec 16) (sps : List (Nat × Nat)) :
    (working i a b).poisonedAt (running (working i a b) d) sps = none := by
  have p : ∀ x, (running (working i a b) d).poisoned x = false := fun x => by
    simp [State.poisoned, State.deadAt, running, State.reset, Assoc.get, Assoc.find]
  simp [MatrixOp.poisonedAt, p]

theorem premise_matrix_completes :
    MatrixLast (running (working (.zzero 1 0) 0 0) 0xFFFF) 0 (runner (working (.zzero 1 0) 0 0) 0xFFFF) (working (.zzero 1 0) 0 0) ∧
    ∀ i ∈ [Instr.zst 4 2, .zsta 4 2, .qtile 0 8 2 0 0 1], ∀ a b,
      MatrixLast (running (working i a b) 0) 0 (runner (working i a b) 0) (working i a b) := by
  refine ⟨last_of (by decide +kernel) ⟨rfl, rfl⟩, fun i h a b => last_of ?_ ⟨rfl, rfl⟩⟩
  have calm : ∀ x < 256, State.reset.homeWaits (paSpad 0 0 + 256 * x) = false := by decide +kernel
  have e : (running (working i a b) 0).engineReady 0 (working i a b).po (BitVec.allOnes 32) = true := by
    simp [State.engineReady, State.matrixPaused, State.debtsPaid, running, runner, working, loadedGroup, Assoc.find]
    exact ⟨calm, fun _ _ h => by simp [State.reset] at h⟩
  have free : (running (working i a b) 0).outputsFree 0 (runner (working i a b) 0) (working i a b) = true := by
    unfold State.outputsFree
    split <;> simp [not_shackled]
  simp only [lastB, e, free, Bool.true_and, State.outputPoison, not_poisoned]
  simp only [List.mem_cons, List.not_mem_nil, or_false] at h
  rcases h with rfl | rfl | rfl <;> rfl

/-- A geometric instruction over FP32 operands of one value, and over a NaN. -/
theorem premise_geometric :
    let ok := fun (x : Word) (p : Ctx → Bool) =>
      meets (.orient2 40 0 0 0 0 1) (run (.orient2 40 0 0 0 0 1) (fillAll (List.range 6) x 3) State.reset) (fun c =>
        takesB c 0 ((⟨3, 2, 0x50⟩ : GeoForm).count true) (fun t => decide (t = 0x03)) && p c)
    ok 0x3F800000 (fun c => (lanesOf c.f.mask).all (fun l => (⟨3, 2, 0x50⟩ : GeoForm).finite true c 0 l)) = true ∧
    ok 0x7FC00000 (fun c => (lanesOf c.f.mask).any (fun l =>
      !c.g.geodone.getLsbD l && !(⟨3, 2, 0x50⟩ : GeoForm).finite true c 0 l)) = true := by decide +kernel

/-- A geometric instruction in flight with lane 0 still to decide, and with none. -/
def deciding (open_ : Mask) : GeoOp :=
  { opcode := 0x50, sos := false, f32 := true, dest := 40, base := 0, count := 6, idxLine := none, block := List.replicate 6 (Lanes.fill 0)
    index := Lanes.fill 0, codes := 0, slot := false, mask := 1, pc := ⟨0, 0, false⟩, stamp := 1, open_ := open_ }

def evaluating (open_ : Mask) (reset : Bool) (input : Input) : State :=
  { State.reset with
    input := input, groups := [(0, { loadedGroup .vector with geoOp := some (deciding open_) })]
    parts := [(0, { epuReset := reset })] }

theorem premise_epu :
    (evaluating 1 false (.two 0 0)).epuResetting 0 = false ∧ (evaluating 1 false (.two 0 0)).epuAhead 0 1 0 < 8 ∧
    (deciding 1).open_.getLsbD 0 = true ∧ ({ loadedGroup .vector with geoOp := some (deciding 1) }).geoPoison (deciding 1) = none ∧
    (deciding 0).open_ = 0 ∧ (evaluating 1 true (.one 0)).epuResetting 0 = true := by decide +kernel

/-! Steps of the device (02 R27 to R41; 03; 10 R217 to R231; 11 R242 to R258; 12; 13) -/

/-- A group that has ended, in a unit of a live launch whose counters can be written. -/
def ended : State :=
  { launchState 0 0 with input := .one 0, groups := [(0, { loadedGroup .vector with ending := true, exited := 0xFFFFFFFF })] }

def countsB (s : State) (l : Launch) (va : Nat) : Bool :=
  decide (va % 16 = 0) && (match s.reach l.job l.keymask va true with
    | .at flat f => !s.shackled flat && decide (flat + 16 ≤ f.pte ∨ f.pte + 8 ≤ flat)
    | _ => false) && !s.deviceOpen l.job va

theorem counts_of {s : State} {l : Launch} {va : Nat} (h : countsB s l va = true) : ∃ flat f, Counts s l va flat f := by
  unfold countsB at h
  cases e : s.reach l.job l.keymask va true <;> simp [e] at h
  rename_i flat f
  exact ⟨flat, f, h.1.1, e, h.1.2.1, h.2, h.1.2.2⟩

theorem premise_group_end :
    (Assoc.find 0 ended.groups).any (fun g => ended.quiet 0 g && g.ending && !g.cancelled && decide (g.stop ≠ .lost ∧ g.fails = []) &&
      decide (ended.launchOf g = some launched) && (ended.unitOf g).isSome) = true ∧
    countsB ended launched (launched.block + 0x20) = true := by decide +kernel

theorem premise_unit_retire :
    let s := { launchState 0 0 with
      input := .one 0, units := [(0, { launch := 0, ix := 0, core := 0, spadBase := 0, spadLen := 0, groups := 1, live := 0 })] }
    countsB s launched launched.block = true ∧ countsB s launched (launched.block + 0x20) = true ∧
    (Assoc.find 0 s.units).any (fun u => decide (u.live = 0 ∧ u.pending = []) && !u.retired && !launched.ring.contains u.ix) = true := by
  decide +kernel

theorem premise_issue_cycle :
    let s := { State.reset with input := .one 0, groups := [(0, loadedGroup .vector)] }
    Assoc.get false s.draining 0 = false ∧ ({ s with input := .none }.settlePart 0).select 0 = some (2, 0, loadedGroup .vector) ∧
    ({ State.reset with input := .none }.settlePart 0).select 0 = none := by decide +kernel

theorem premise_swap :
    let g := { loadedGroup .vector with wait := .object 2 0x20000 0 false .take, waitkind := 3 }
    let s := { State.reset with input := .one 0, groups := [(0, g)], clock := 10 ^ 6, parts := [(0, { cycle := 10 ^ 6 })] }
    g.resident = true ∧ g.swapEligible = true ∧ g.waitSince + s.swapIdle ≤ s.now g ∧
    { loadedGroup .vector with resident := false }.wantsSlot = true ∧
    ({ State.reset with groups := [(0, { loadedGroup .vector with resident := false })] } : State).residents 0 < 24 := by decide +kernel

/-- The live launch with its unit still to be placed. -/
theorem premise_placement :
    let s := { launchState 0 0 with input := .one 0, units := [] }
    s.ranked = [(0, launched)] ∧ launched.cluen = false ∧ s.fits 0 launched = true ∧
    (List.range 128).all (fun c => decide (launched.groups ≤ ((List.range 192).filter (fun f =>
      (Assoc.find (groupKey (128 * 0 + c) f) s.groups).isNone)).length)) = true := by decide +kernel

theorem premise_matrix_units :
    let s := fun (m : MuMode) => { State.reset with input := .one 0, clock := 4096, parts := [(0, { mu := m })] }
    ((s .awake).muHolder 0 = none ∧ ((s .awake).part 0).muLast + 1024 ≤ (s .awake).clock) ∧
    ((s (.requested 3)).oldestRequest 0 3 = true ∧ (s (.requested 3)).muOut 0 < (s (.requested 3)).mucap 0) ∧
    ((s (.waking 9)).part 0).mu = .waking 9 ∧ ((s (.resetting 9)).part 0).mu = .resetting 9 := by decide +kernel

theorem premise_walk_without_cycle : State.reset.leastCycles = [] := by decide +kernel

theorem premise_group_commands :
    let s := fun (action : Nat) (g : Group) => { State.reset with input := .word (2 ^ 63 + 2 ^ 32 + 2 ^ 16 * action), groups := [(0, g)] }
    let fault := { loadedGroup .vector with stop := .faulted, frec := { (loadedGroup .vector).frec with faultword := 0x0E } }
    GroupCommanded (s 0 fault) 0 0 fault ∧ (s 0 fault).faulted fault = true ∧
    GroupCommanded (s 1 fault) 1 0 fault ∧ GroupCommanded (s 2 fault) 2 0 fault ∧ GroupCommanded (s 3 fault) 3 0 fault ∧
    GroupCommanded (s 4 (loadedGroup .vector)) 4 0 (loadedGroup .vector) ∧
    GroupCommanded (s 5 { loadedGroup .vector with stop := .commanded }) 5 0 { loadedGroup .vector with stop := .commanded } ∧
    (s 5 { loadedGroup .vector with stop := .commanded }).reportWaits { loadedGroup .vector with stop := .commanded } = false := by
  refine ⟨⟨_, rfl, ?_⟩, ?_, ⟨_, rfl, ?_⟩, ⟨_, rfl, ?_⟩, ⟨_, rfl, ?_⟩, ⟨_, rfl, ?_⟩, ⟨_, rfl, ?_⟩, ?_⟩ <;> decide +kernel

/-- A matrix-role group stopped by a poison fault, whose slot holds the word to be replayed, or no slot holds it. -/
theorem premise_replay :
    let g := { loadedGroup .matrix with
      stop := .faulted, keymask := 1, frec := { (loadedGroup .matrix).frec with faultword := 0x10 } }
    let x := 2 ^ 63 + 2 ^ 32 + 2 ^ 16 * 3
    let s := fun (ts : List (Nat × Slot)) => { State.reset with input := .word x, groups := [(0, g)], slots := ts }
    let c := replayOf (s [(slotKey 0 0,
      { job := 1, code := 0, ovl := 0, addr := 0, size := 4, bytes := slotBytes ((encode (.zzero 1 0)).getD 0) })]) x 0 g
    (s []).replayable g = true ∧ c.s.slotOf 0 1 0 0 = some 0 ∧
    ((Assoc.find (slotKey 0 0) c.s.slots).any (fun t => decide (t.fetch (pcOfLow 0) = .instr (.zzero 1 0)))) = true ∧
    c.s.muHolder g.partNo = none ∧ (c.s.part g.partNo).mu = .awake ∧ c.poisonTraps 0 (c.readRegs (shapeOf c.g (.zzero 1 0))) = [] ∧
    c.matrixTraps (.zzero 1 0) = [] ∧ heldBy ((c.matrixChecks (.zzero 1 0)).1 ++ (c.matrixChecks (.zzero 1 0)).2) = none ∧
    (replayOf (s []) x 0 g).s.slotOf 0 1 0 0 = none ∧ (replayOf (s []) x 0 g).s.freeSlot 0 = some 0 := by decide +kernel

theorem premise_held_check :
    let g := { loadedGroup .vector with wait := .held 0x10000 false, keymask := 1 }
    let s := paged { State.reset with input := .one 0, groups := [(0, g)] }
    Assoc.find 0 s.groups = some g ∧ (match s.place g (some 0) 0x10000 false with | .held _ => false | _ => true) = true := by decide +kernel

theorem premise_trap_completion :
    let g := { loadedGroup .vector with wait := .trapCall 1 0, waitkind := 7, trapSeq := 1 }
    let b := leBytes 2 1 ++ leBytes 2 0 ++ leBytes 4 1 ++ leBytes 4 7 ++ leBytes 4 8
    b.length = 16 ∧ groupKey (fieldOf b 2 1) (fieldOf b 3 1) = 0 ∧ g.job = fieldOf b 0 2 ∧ (1 : BitVec 16).toNat = fieldOf b 4 2 := by
  decide +kernel

theorem premise_ring_write :
    let s := { trapRing State.reset with input := .one 16, rings := [(16, [List.replicate 64 7])] }
    s.ringOpen 16 = true ∧ (s.ring 16).recordSize = 64 ∧ Assoc.get [] s.rings 16 = [List.replicate 64 7] := by decide +kernel

/-- A remote request of job 1, which is open to the pod with key 0. -/
def requested (k : AccessKind) (va : Nat) : Request :=
  { src := 3, dst := 0, core := 0, frame := 0, job := 1, role := .vector, keymask := 1, scope := 4, pcword := 0
    access := k, plane := 0, seq := 1, op := 5, acc := va }

def openJob (r : Request) : State :=
  { words [(0x7008, 0x10001)] (paged (State.reset.ctlSet .fabric 0x10 8 0x7000)) with input := .request r }

/-- Whether the request's access may take effect. -/
def servesB (s : State) (r : Request) : Bool :=
  decide (r.dst = s.chipId) && s.podValid r.job && s.jobLive r.job &&
  match (walk s (s.remoteAgent r) r.job r.access.first r.access.writes).place s r.access.first r.access.writes with
  | .here flat _ => !s.shackled flat
  | _ => false

theorem serves_of {r : Request} (h : servesB (openJob r) r = true) (n : r.flagged = none) :
    ∃ flat f, Serves (openJob r) r flat f ∧ (openJob r).shackled flat = false := by
  simp only [servesB, Bool.and_eq_true, decide_eq_true_eq] at h
  cases e : (walk (openJob r) ((openJob r).remoteAgent r) r.job r.access.first r.access.writes).place (openJob r) r.access.first
      r.access.writes with
  | here flat f =>
    rw [e] at h
    exact ⟨flat, f, ⟨rfl, h.1.1.1, by simp [openJob, words, paged, State.ctlSet, State.reset],
      fun w hw => absurd hw (by simp [openJob, words, paged, State.ctlSet, State.reset]), n, ⟨h.1.1.2, h.1.2⟩,
      by simp [openJob, words, paged, State.ctlSet, State.reset], e⟩, by simpa using h.2⟩
  | _ => rw [e] at h; simp at h

theorem premise_remote_requests :
    servesB (openJob (requested (.read [(0x10000, 0)]) 0)) (requested (.read [(0x10000, 0)]) 0) = true ∧
    servesB (openJob (requested (.write [(0x10000, 7)]) 0)) (requested (.write [(0x10000, 7)]) 0) = true ∧
    (let r := requested (.read [(0x50000, 0)]) 0
     match (walk (openJob r) ((openJob r).remoteAgent r) 1 0x50000 false).place (openJob r) 0x50000 false with
     | .fault t => t.curable
     | _ => false) = true ∧
    State.reset.podValid 1 = false := by decide +kernel

/-- A ticket whose last notice is to come, with the store or the load that waits for it. -/
theorem premise_replay_notice :
    let k : KnownTicket := { serial := 1, owner := 3, number := 9, job := 1, page := 1, hint := 0, notices := [0, 1, 2, 3, 4, 5, 6] }
    let x := fun (k : AccessKind) => ({
      state := 1, op := 5, acc := 0, access := { chip := some 3, kind := k }, owner := 3, number := 9, serial := 1, hint := 0, order := 0 } : TicketEntry)
    let s := fun (k' : AccessKind) (o : MemOp) => { State.reset with
      input := .notice 3 9 7 0 0x08 0, known := [k], rtkt := [(0, x k')], ops := [(5, o)], groups := [(0, loadedGroup .vector)] }
    let w := s (.write [(0x20000, 7)]) { stored with accs := [], sent := [(0, { chip := some 3, kind := .write [(0x20000, 7)] })] }
    let r := s (.read [(0x20000, 0)]) { loading with accs := [], sent := [(0, { chip := some 3, kind := .read [(0x20000, 0)] })] }
    7 ∉ k.notices ∧ k.notices.length = 7 ∧ Assoc.sorted w.rtkt = true ∧ chainHead (w.chain 0 1) = some (0, x (.write [(0x20000, 7)])) ∧
    Assoc.find (planeIndex 0x20000) w.planeNow = none ∧ (Assoc.find 0 w.groups).any (fun g => decide (g.fails = [] ∧ g.wait = .none)) = true ∧
    chainHead (r.chain 0 1) = some (0, x (.read [(0x20000, 0)])) := by decide +kernel

theorem premise_planes :
    let s := { State.reset with input := .one 2 }
    s.alive 2 = true ∧ s.alive 3 = true ∧ (∀ j < 8, j ≠ 2 → j ≠ 3 → (3 + 8 - 2) % 8 < (j + 8 - 2) % 8) ∧
    (∀ i < 8, s.alive (bitsOf 0x00FAC688 (3 * i) 3) = true) := by decide +kernel

theorem premise_markers :
    markersReached State.reset 3 0 ∧ (∀ w ∈ State.reset.waiting, w.req.src ≠ 3) ∧
    (let g := { loadedGroup .vector with wait := .fencer [(3, 1)] 0 }
     (∀ x ∈ [((3 : Nat), (1 : Nat))], x = (3, 1)) ∧ g.ctrRemote = 0 ∧ g.tickets = 0) := by
  unfold markersReached
  decide +kernel

/-- Vector 2 of a table at 0x7000, whose object of job 1 is the barrier at 0x10000: bound, for MSIs from any function and notify stores. -/
def vectors (flags : Nat) : State :=
  let s := (State.reset.ctlSet .io 0x10 8 0x7000).ctlSet .io 0 8 0x100000
  { words [(0x7020, 0x10000), (0x7028, 1 + 2 ^ 32 * flags), (0x20000, 2)] (paged s) with links := [(1, true)] }

theorem premise_arrivals :
    let s := vectors 0xF
    s.portOpen 1 = true ∧ s.ctlNat .io 0 8 ≤ 0x100020 ∧ s.boundWith 2 1 = true ∧ bitsOf (s.vectorFlags 2) 3 1 = 1 ∧
    s.boundWith 2 2 = true ∧ s.acsRefused 1 0 false = false ∧ s.lineWaits (s.vectorAt 2) = false ∧
    s.endpoints = [] ∧ s.arrivals = [] ∧ s.hartq = [] ∧
    (match s.arrivalPlace (s.vectorJob 2) (s.vectorObj 2) with
     | .at pa f => decide (f.pte + 8 ≤ pa ∨ pa + 16 ≤ f.pte) && !s.parked pa && !s.memberLostAt pa && !s.lineWaits pa
     | _ => false) = true ∧
    (vectors 0).bound 2 = false ∧ (vectors 0).vectorObj 2 % 16 = 0 ∧
    (match (vectors 0).arrivalPlace ((vectors 0).vectorJob 2) ((vectors 0).vectorObj 2) with
     | .at pa _ => decide (bitsOf ((vectors 0).signal pa) 17 1 = 0 ∧ (vectors 0).vectorAt 2 + 0xE ≤ pa + 8)
     | _ => false) = true := by decide +kernel

/-- A function at port 1 with PASID 0 of job 1, which may write and ask for pages. -/
def served : State :=
  { words [(0x107000, 1 + 2 ^ 16 + 2 ^ 48 * 0xF)] (paged ((State.reset.ctlSet .io 0x20 8 0x7000).ctlSet .io 0 8 0x100000)) with
    links := [(1, true)] }

theorem premise_endpoints :
    served.portOpen 1 = true ∧ served.pasidServes 1 0 0 = true ∧ served.pasidFlag 1 0 1 = true ∧ served.pasidFlag 1 0 2 = true ∧
    (match served.endpointPlace 1 0 0x10000 true with | .at pa _ => !served.spanShackled pa 8 && !served.spanPoisoned pa 8 | _ => false) = true ∧
    (served.ring 2).room = false ∧ served.acsRefused 1 0 true = false ∧ served.tagsFull 1 = false ∧
    { served with portRegs := [(1, { acs := 2 })] }.acsRefused 1 0 true = true ∧ served.inArrivalWindow 0x10000 = false := by decide +kernel

theorem premise_ntb :
    let s := { (State.reset.ctlSet .io 0x32B 1 1).ctlSet .io 0x320 8 0x20000 with links := [(1, true)] }
    s.ntbOn 1 = true ∧ s.portOpen 1 = true ∧ 0 + 8 ≤ 2 ^ s.ctlNat .io 0x32A 1 ∧ s.populated 0x20000 = true := by decide +kernel

theorem premise_invalidation :
    State.reset.invalidation = none ∧ State.reset.locks = [] ∧ State.reset.ops = [] ∧ bitsOf (2 ^ 31 + 1) 31 1 = 1 ∧
    bitsOf (2 ^ 31 + 1) 0 2 = 1 := by decide +kernel

/-- A page entry that is marked for migration. -/
theorem premise_migration :
    let s := words [(0x8008, 0x20210)] (paged ((State.reset.ctlSet .trans 0x48 8 0x8008).ctlSet .trans 0x50 8 0x30010))
    s.migration = none ∧ (inHbm 0x8008 || inTier2 0x8008) = true ∧ pteMig (s.nat 0x8008 8) = true ∧ s.ctlNat .trans 0x48 8 = 0x8008 ∧
    pteMig (s.ctlNat .trans 0x50 8) = false ∧ pteV (s.ctlNat .trans 0x50 8) = false := by decide +kernel

theorem premise_harts :
    let s := { State.reset with input := .hart 1 .m 0x20000 true 0 [7], harts := [(2, { mkeys := 0 })] }
    s.populated 0x20000 = true ∧ (∀ a ∈ framesOf 0x20000 1, hartRefused .m ((s.hartKeys 1).effective .m) (s.frameKey a) = false) ∧
    s.homeWaits 0x20000 = false ∧ s.hartq = [] ∧ s.spanShackled 0x20000 1 = false ∧ 0x20000 ∉ s.spoiled (cellsFrom 0x20000 [7]) ∧
    (∃ a ∈ framesOf 0x20000 1, hartRefused .u ((s.hartKeys 2).effective .u) (s.frameKey a) = true) := by decide +kernel

/-- A group whose stop is reported while its die's ring is disabled, and at once. -/
theorem premise_exception :
    let s := { State.reset with groups := [(0, loadedGroup .vector)] }
    Assoc.find 0 s.groups = some (loadedGroup .vector) ∧ (loadedGroup .vector).core < 256 ∧ Assoc.get [] s.rings 0 = [] ∧
    s.ringOpen 0 = false ∧ (((s.ctlSet .trans 0x10 8 0x40000).ctlSet .trans 0x18 2 64).ctlSet .trans 0x1E 2 1).ringOpen 0 = true := by
  decide +kernel

theorem premise_fetch :
    let s := fun (f : Group → Group) => run (.nop 0) f State.reset
    ((issuing (s id)).any (fun c => ((s id).overlay c.g 0).any (fun t => t.loading.isNone && decide (c.f.pc.off.toNat < t.size / 4)) &&
      !c.f.pc.past)) = true ∧
    (issuing (s (fun g => { g with live0 := { g.live0 with pc := ⟨1, 0, false⟩ } }))).any (fun c => decide (c.s.overlay c.g 1 = none)) = true ∧
    (issuing (s (fun g => { g with live0 := { g.live0 with pc := ⟨0, 1, false⟩ } }))).any (fun c =>
      (c.s.overlay c.g 0).any (fun t => decide (t.size / 4 ≤ c.f.pc.off.toNat))) = true ∧
    (issuing ((s id).poisonCode (slotKey 0 0) 0)).any (fun c => (c.s.overlay c.g 0).any (fun t => decide (c.f.pc.off.toNat / 16 ∈ t.poison))) = true ∧
    (State.reset.setPodboot 0 2 3).heldBack .tcompl = true ∧ State.reset.heldBack .tcompl = false := by decide +kernel

/-- An ill-formed instruction, one that the role may not issue, and one under a clear guard. -/
theorem premise_word_traps :
    (issuing (run (.nop 0) id State.reset)).any (fun c =>
      c.scoreboard (shapeOf c.g (.iadd 48 0 0 7 0)) && !c.holdsBack (.iadd 48 0 0 7 0) && !Instr.wellFormed (.iadd 48 0 0 7 0) &&
      c.scoreboard (shapeOf c.g (.copy 2 4 6 0)) && decide (c.g.role ∉ (shapeOf c.g (.mma 1 4 8 0 0 0)).roles)) = true ∧
    (issuing (run (.iadd 2 0 1 1 0) (fun g => { g with q := 0 }) State.reset)).any (fun c =>
      c.scoreboard (shapeOf c.g (.uadd 2 4 6 1 0)) && !c.guardOn (shapeOf c.g (.uadd 2 4 6 1 0)).guard &&
      decide (c.underrun (shapeOf c.g (.uadd 2 4 6 1 0)).guard.regs = [])) = true := by decide +kernel

/-- The walks of the pages at 0x10000 and 0x50000: a leaf, and an invalid entry. -/
theorem premise_walks :
    let s := paged State.reset
    s.jobLive 1 = true ∧
    (match walk s (.group .vector 1) 1 0x10000 true with | .ok f => decide (f.level = 3 ∧ f.pa = 0x20000) | _ => false) = true ∧
    (match walk s (.group .vector 1) 1 0x50000 false with | .fault t => decide (t.kind = 0x08 ∧ t.cause = 0) | _ => false) = true ∧
    (match walk s (.group .vector 0) 1 0x10000 false with | .fault t => decide (t.kind = 0x07) | _ => false) = true ∧
    (match walk (words [(0x8008, 0x20000 + 0x211)] s) (.group .vector 1) 1 0x10000 false with | .held p => decide (p = 0x8008) | _ => false) = true ∧
    (match walk (words [(0x8008, 0x20001)] s) (.group .vector 1) 1 0x10000 false with | .fault t => decide (t.kind = 0x09 ∧ t.cause = 1) | _ => false) = true := by
  decide +kernel

/-- A core and a slice that fail with spares left. -/
theorem premise_errors :
    (State.reset.sparesOf 0).used < 4 ∧ (State.reset.sparesOf 0).slice = none ∧ 5 ∉ (State.reset.sparesOf 0).deadSlices ∧
    Assoc.get false State.reset.draining 5 = false ∧ Assoc.get false State.reset.retiredCores 5 = false := by decide +kernel

/-- A group of a drained core: with a geometric instruction in flight, and with a load that has made no access. -/
theorem premise_restart :
    let h := { loadedGroup .vector with geoOp := some (deciding 1), live0 := { (loadedGroup .vector).live0 with mask := 1, pc := ⟨0, 1, false⟩ } }
    let g := { loadedGroup .vector with
      issues := 1, busy := [.v 4], live0 := { (loadedGroup .vector).live0 with pc := ⟨0, 1, false⟩ } }
    let o := { loading with size := 1 }
    let s := { State.reset with input := .failure 0 [] [] [], draining := [(0, true)], groups := [(0, g)], ops := [(5, o)] }
    s.groupsOn 0 = [0] ∧ o.accs.length = o.size ∧ g.issues = o.issue + 1 ∧ (g.live o.slot).mask = o.owner ∧
    (g.live o.slot).pc = (pcOfLow o.pcword).next ∧ h.geoStoppable (deciding 1) = true := by decide +kernel

/-- Another leader, of a lower or a higher serial than this module's. -/
theorem premise_leaders : ∃ serial, serial ≠ mySerial ∧ serial < 2 ^ 64 := by
  by_cases h : mySerial = 0
  · exact ⟨1, by omega, by decide⟩
  · exact ⟨0, by omega, by decide⟩

/-- A chunk that the plan keeps, whose bytes have the digest of the manifest. -/
theorem premise_chunk (len : Nat) (cells : List Host.Cell) :
    let s := { (State.reset.setPodboot 0 2 1) with
      input := .chunk 4 len cells, pod := { manifest := [(4, Config.shake256 len cells)], plan := [4] } }
    s.leads = false ∧ s.bootState = 1 ∧ Assoc.find 4 s.pod.manifest = some (Config.shake256 len cells) ∧ 4 ∈ s.pod.plan ∧
    ∀ c ∈ s.pod.kept, c.index ≠ 4 :=
  ⟨(by decide +kernel : (State.reset.setPodboot 0 2 1).leads = false), (by decide +kernel : (State.reset.setPodboot 0 2 1).bootState = 1), rfl,
    by simp, by simp⟩

/-- Root-port registers that a hart of S mode reaches, and a port that DPC contains. -/
theorem premise_port_registers :
    let s := { State.reset with
      input := .portReg 1 .hs 2 .dpc true 1, links := [(2, true)], contained := [(2, true)] }
    s.portOpen 2 = false ∧ Assoc.get false s.links 2 = true ∧ bitsOf 1 0 1 = 1 := by decide +kernel

/-- Keys that an agent reads and one that it may not write. -/
theorem premise_keys :
    keyRefusal (.group .copy 3) false 1 = none ∧ keyRefusal (.group .copy 3) true 1 = some 1 ∧ keyRefusal (.endpoint 3) false 1 = some 1 ∧
    keyRefusal (.device 0x7FFD) true 15 = some 2 ∧ hartRefused .hs 0xFFFF 1 = true ∧ hartRefused .hs 0 15 = false := by decide

/-- A launch that passes its checks: a live job, a usable block, one unit of one group, whose code is overlay 0 of the table at 0x10000. -/
def admission : Launch := { launched with held := true, block := 0x11200, code := 0x10000, frame := 48 }

theorem premise_admission :
    let s := words [(0x20000, 1), (0x20010, 0x10100), (0x20018, 64)] (paged State.reset)
    s.levelCancelled admission = false ∧ s.blockWaits admission = false ∧ s.blockUsable admission = true ∧
    admission.flags.toNat % 256 = 1 ∧ admission.flags.toNat / 2 ^ 12 = 0 ∧ s.checkTable admission = .pass ∧
    s.serviceFailed (.admission 0 0) = none := by decide +kernel

end Premises

end Sys2Proof.Tests
end

section
/-! PROOFS. The bit counts and the bit reversal of lane values: what POPC, CLZ and BREV leave in the acting lanes (15 R351, R363; 17 R436). -/

namespace Sys2Proof.Machine

open Sys2Proof.Claims

/-! ### Masks as sums of bits -/

/-- A number written as a sum of the first `n` bits of `f` is below 2^n and has exactly those bits. -/
theorem sum_bits_lt_and_testBit (f : Nat → Bool) (n : Nat) :
    (List.range n).foldl (fun a i => a + b2n (f i) * 2 ^ i) 0 < 2 ^ n ∧
    ∀ i < n, ((List.range n).foldl (fun a i => a + b2n (f i) * 2 ^ i) 0).testBit i = f i := by
  induction n with
  | zero => simp
  | succ n ih =>
    obtain ⟨hlt, hbit⟩ := ih
    rw [List.range_succ, List.foldl_append, List.foldl_cons, List.foldl_nil, Nat.add_comm, Nat.mul_comm]
    refine ⟨?_, fun i hi => ?_⟩
    · have hb : 2 ^ n * b2n (f n) ≤ 2 ^ n := by cases f n <;> simp [b2n]
      rw [Nat.pow_succ]
      omega
    · rw [Nat.testBit_two_pow_mul_add _ hlt]
      by_cases h : i < n
      · simp [h, hbit i h]
      · obtain rfl : i = n := by omega
        cases hf : f i <;> simp [b2n]

/-- Bit `i` of the mask of a predicate is the predicate at `i`. -/
theorem getLsbD_maskOf (f : Nat → Bool) {i : Nat} (hi : i < 32) : (maskOf f).getLsbD i = f i := by
  simp only [maskOf, w32, BitVec.getLsbD_ofNat, (sum_bits_lt_and_testBit f 32).2 i hi, hi, decide_true, Bool.true_and]

/-! ### Reversal and counts -/

theorem getLsbD_bitReverse (x : Word) {i : Nat} (hi : i < 32) : (bitReverse x).getLsbD i = x.getLsbD (31 - i) :=
  getLsbD_maskOf (fun j => x.getLsbD (31 - j)) hi

theorem popcount_le (x : Word) : popcount x ≤ 32 := by
  simpa [popcount] using List.countP_le_length (p := fun i => x.getLsbD i) (l := List.range 32)

theorem toNat_w32_of_le {n : Nat} (h : n ≤ 32) : (w32 n).toNat = n := by
  rw [w32, BitVec.toNat_ofNat]
  omega

theorem leadingZeros_le (x : Word) : leadingZeros x ≤ 32 := by
  unfold leadingZeros
  split <;> omega

/-- Below the leading zeros of a word other than 0 stands its highest set bit, bit `log2`. -/
theorem leadingZeros_of_ne_zero {x : Word} (h : x ≠ 0) :
    leadingZeros x ≤ 31 ∧ x.getLsbD (31 - leadingZeros x) = true ∧ ∀ i, 31 - leadingZeros x < i → x.getLsbD i = false := by
  have hx : x.toNat ≠ 0 := fun e => h (BitVec.eq_of_toNat_eq e)
  have hlog : Nat.log2 x.toNat < 32 := (Nat.log2_lt hx).2 x.isLt
  have hlz : leadingZeros x = 31 - Nat.log2 x.toNat := if_neg h
  have hsub : 31 - leadingZeros x = Nat.log2 x.toNat := by omega
  rw [hsub]
  exact ⟨by omega, Nat.testBit_log2 hx, fun i hi => Nat.testBit_lt_two_pow ((Nat.log2_lt hx).1 hi)⟩

/-! ### Bitwise instructions of one source -/

/-- The tags that bitwise instructions accept are the assigned ones. -/
theorem anyTag_of_assignedTag {t : BitVec 5} (h : assignedTag t = true) : anyTag t = true := by
  simp only [assignedTag, anyTag, tagAssigned, decide_eq_true_eq] at h ⊢
  omega

/-- WHAT `bitwise1` DOES: in each acting lane the destination takes `f` of the source, with tag RAW. -/
theorem bitwise1_writes {i : Instr} {d a : BitVec 6} {f : Word → Word} (hx : ∀ s, exec i s = bitwise1 i s d a f) :
    Lane1 i d a assignedTag (tagIs 0x00) f := by
  refine laneInstr_writes hx (fun s c _ h => ?_) (fun c => rfl) (fun c _ => ?_)
  · exact Ctx.accept_nil (fun k hk t ht => anyTag_of_assignedTag (h k hk t ht))
  · have hd : d.toNat < 256 := by omega
    simpa using hd

/-- A ready lane instruction of one source completes, with its result's tag and its values in the acting lanes. -/
theorem lane1_result {i : Instr} {d a : BitVec 6} {ok : BitVec 5 → Bool} {tag : Ctx → BitVec 5} {f : Word → Word}
    (h : Lane1 i d a ok tag f) {s : State} {c : Ctx} (r : Ready i s c) (hok : c.takes a 1 ok) :
    ∃ t g', exec i s = .next t ∧ Only c s t g' ∧ g'.tagByte (c.g.lbase + d.toNat) = (tag c).zeroExtend 8 ∧
      ∀ l : Fin 32, (c.acting i).getLsbD l.val = true → (g'.line (c.g.lbase + d.toNat))[l] = f (c.val a)[l] := by
  obtain ⟨t, g', he, ho, -, -, hw⟩ := h s c r hok
  obtain ⟨htag, hline⟩ := hw _ (List.mem_singleton_self _)
  refine ⟨t, g', he, ho, htag, fun l hl => ?_⟩
  rw [hline l, if_pos hl]

theorem popc_writes (d a : BitVec 6) (g st : BitVec 3) :
    Lane1 (.popc d a g st) d a assignedTag (tagIs 0x00) (fun x => w32 (popcount x)) :=
  bitwise1_writes (fun _ => rfl)

theorem clz_writes (d a : BitVec 6) (g st : BitVec 3) :
    Lane1 (.clz d a g st) d a assignedTag (tagIs 0x00) (fun x => w32 (leadingZeros x)) :=
  bitwise1_writes (fun _ => rfl)

theorem brev_writes (d a : BitVec 6) (g st : BitVec 3) : Lane1 (.brev d a g st) d a assignedTag (tagIs 0x00) bitReverse :=
  bitwise1_writes (fun _ => rfl)

/-- Settles O4: the values are `popcount` and `leadingZeros` of the source, which fit a word. -/
theorem popcAndClzCount : Obligations.PopcAndClzCount := by
  intro d a g st s c hok
  refine ⟨fun r => ?_, fun r => ?_⟩
  · obtain ⟨t, g', he, ho, htag, hv⟩ := lane1_result (popc_writes d a g st) r hok
    refine ⟨t, g', he, ho, htag, fun l hl => ?_⟩
    rw [hv l hl, toNat_w32_of_le (popcount_le _), popcount, List.countP_eq_length_filter]
  · obtain ⟨t, g', he, ho, -, hv⟩ := lane1_result (clz_writes d a g st) r hok
    refine ⟨t, g', he, ho, fun l hl => ?_⟩
    rw [hv l hl, toNat_w32_of_le (leadingZeros_le _)]
    exact ⟨fun h => if_pos h, leadingZeros_of_ne_zero⟩

/-- Settles O5: the value is `bitReverse` of the source, the mask of the source's bits in the other order. -/
theorem brevReversesBits : Obligations.BrevReversesBits := by
  intro d a g st s c r hok
  obtain ⟨t, g', he, ho, -, hv⟩ := lane1_result (brev_writes d a g st) r hok
  refine ⟨t, g', he, ho, fun l hl i hi => ?_⟩
  rw [hv l hl, getLsbD_bitReverse _ hi]

end Sys2Proof.Machine
end
